-- ==== Sys2Proof/Word.lean ====
section
/-! DEFINITION. The plain number types of the ZE3224: bytes of the control link and the numbers that name
instances, library slots and port slots (00 "Numbering"). Samples, gains, delays and counts are exact
integers (00 "Arithmetic"): `Int` where they are signed, `Nat` where they are not. -/

namespace Sys2Proof

/-- A byte of the control link (R182). -/
abbrev Byte := BitVec 8

/-- An instance number, 0 to 23 (R69). -/
abbrev InstNo := Fin 24

/-- A library slot number, 0 to 63 (R133). -/
abbrev SlotNo := Fin 64

/-- An input or output slot number, 0 to 31 (R169). -/
abbrev PortNo := Fin 32

/-- A lane frame: the 512 bit periods of one lane between two frame syncs, the first one sent in the most significant bit (R169). -/
abbrev LaneFrame := BitVec 512

end Sys2Proof
end

