-- ==== Sys2Proof/Syntax.lean ====
section
/-! DEFINITION. The commands of the ZE3224: one constructor for each row of spec/opcode_table.json.
A request row takes no operand of its own: its operands are the bytes of the frame that the request handler
takes from the inbox within the event (R189). Log 1. -/

namespace Sys2Proof

/-- Bits of one DRAM word that the external device has inverted (chapter 08, introduction): an input of the
events that read the DRAM. Log 5. -/
structure Upset where
  addr   : Nat
  sample : BitVec 24
  code   : BitVec 6
  deriving DecidableEq, Repr

/-- What the part, its DRAM and the RESET pin bring to one frame start: the order in which instances are processed (R24, R154: the part
fixes none), the bits the DRAM has inverted, and, where the RESET pin is asserted during the processing of the frame, how many line
writes have been made by then (R48). Instances not named in `order` follow in ascending order. Logs 5, 7 and 23. -/
structure FrameEnv where
  order  : List InstNo
  upsets : List Upset
  cut    : Option Nat
  deriving DecidableEq, Repr

/-- The lane frames of AIN0 and AIN1 that ended at a frame sync edge (R169). -/
structure InputLanes where
  ain0 : LaneFrame
  ain1 : LaneFrame
  deriving DecidableEq, Repr

/-- What comes to a SETUP from outside its frame: the reference ticks since the last timed event (R180), and the bits the DRAM has
inverted before the read back of the sizing check (R18). Logs 3 and 5. -/
structure SetupEnv where
  ticks  : Nat
  upsets : List Upset
  deriving DecidableEq, Repr

inductive Instr where
  -- power and reset
  | powerUp
  | resetPinAssert
  | resetPinRelease
  -- control link, byte by byte
  | requestFrameComplete (b : Byte)
  | strayByte (b : Byte)
  | lenRejected (b : Byte)
  | lselDeassert
  | replySent
  -- requests taken from the inbox
  | unknownKind
  | identify
  | partStatus
  | setup (env : SetupEnv)
  | softReset
  | poolStatus
  | store
  | fetch
  | erase
  | protect
  | list
  | load
  | unload
  | start
  | stopSpill
  | stopCut
  | hold
  | unhold
  | set
  | get
  | instanceStatus
  | cueAdd
  | cueClear
  | cueList
  | go
  | goPin
  | cueApplication
  | tempoSet
  | tempoGet
  | tapMode
  | tapEdge
  | memErrors
  | lineRead
  | lineWrite
  | noticeRead
  | noticeClear
  | noticeConfig
  -- frame clock: ticks of the 24,576,000 Hz reference since the last timed event, and the input lane frames that
  -- ended at the edge (R169, R174)
  | afsEdge (ticks : Nat) (lanes : InputLanes) (env : FrameEnv)
  | edgeWatchExpiry (env : FrameEnv)
  | internalFrameTimer (env : FrameEnv)
  | holdover
  | lockRestored
  -- the part's own events
  | windowEnd (i : InstNo)
  | tailDecision (i : InstNo)
  | release (i : InstNo)
  | serviceEvent (upsets : List Upset)
  -- control link, the bytes within a frame
  | frameBegins
  | lenAccepted (b : Byte)
  | byteKept (b : Byte)
  | replyByteSent
  deriving DecidableEq, Repr

end Sys2Proof
end

