-- ==== Sys2Proof/Decode.lean ====
section
/-! DEFINITION. The command that a word spells by the bits of spec/opcode_table.json. No row of the table gives
bits ("fields" is empty in all 58 rows, and 98_reader.md counts none with fixed bits), so no word spells a
command; the requests' own bytes are read by Machine/Operands.lean. Log 19. -/

namespace Sys2Proof

/-- No row of the table gives bits, so there is no command to read from a word. -/
def decodeTableWord (_nbits _w : Nat) : Option Instr :=
  none

end Sys2Proof
end

