-- ==== Sys2Proof/Config.lean ====
section
/-! DEFINITION. The free values of the model: what the manual leaves open and the part nevertheless holds.
They are constants without a body, so no proof can know their values. -/

namespace Sys2Proof

/-- What a NEAR word holds after the power-up numbered by the first argument, before it is written
(R2: "After power-up the NEAR words hold arbitrary values"). Log 6. -/
opaque Config.nearPowerUp : Nat → Nat → BitVec 24

/-- The sample bits a DRAM word holds after the power-up numbered by the first argument, before it is written
(R3: "The contents of the DRAM after power-up are those of the external device"). Log 6. -/
opaque Config.dramPowerUpSample : Nat → Nat → BitVec 24

/-- The check code such a DRAM word holds (R149: "which may be valid or not"). Log 6. -/
opaque Config.dramPowerUpCode : Nat → Nat → BitVec 6

end Sys2Proof
end

