-- ==== Sys2Proof/Machine/State.lean ====
section
/-! DEFINITION. The state of the ZE3224 as plain data, with the state after power-up. Each field names the rule
that gives it. INVENTORY.md lists them with their reset values. -/

namespace Sys2Proof.Machine

/-- Why a step faults. -/
inductive Fault where
  /-- Raised by AFS_EDGE, EDGE_WATCH_EXPIRY, INTERNAL_FRAME_TIMER and SERVICE_EVENT where a page list, a queued
  write-back or a line access names a word outside its pool (R3: "The part makes no access to DRAM addresses at or
  above size × 2048"). No run from reset reaches such a state. SAFE: the model stops. Log 18. -/
  | noSuchWord
  deriving DecidableEq, Repr

/-- Why a step is refused. -/
inductive Refusal where
  /-- Raised by an arm of `exec` that has no meaning yet. SAFE: the model stops. -/
  | notModelled (mnemonic : String)
  deriving DecidableEq, Repr

/-! ### Programs (R7, R29, R61, R69, R134) -/

inductive Placement where
  | near | far | any
  deriving DecidableEq, Repr

inductive Pool where
  | near | far
  deriving DecidableEq, Repr

inductive Feed where
  | none | a | b | mid
  deriving DecidableEq, Repr

inductive Source where
  | fixed | tempo
  deriving DecidableEq, Repr

inductive LfoSel where
  | none | lfo0 | lfo1
  deriving DecidableEq, Repr

inductive Dest where
  | outA | outB
  | line (k : Nat)
  deriving DecidableEq, Repr

inductive Shape where
  | triangle | smooth
  deriving DecidableEq, Repr

/-- Programmed fields of a line (R7). -/
structure LineProg where
  placement : Placement
  length    : Nat
  feed      : Feed
  deriving DecidableEq, Repr

/-- Programmed fields of a tap (R29). Delays in q8 units, gain and damp in Q15. -/
structure TapProg where
  line   : Nat
  source : Source
  fixed  : Nat
  ticks  : Nat
  lfo    : LfoSel
  depth  : Nat
  gain   : Int
  damp   : Nat
  dest   : Dest
  hold   : Bool
  deriving DecidableEq, Repr

/-- Stored fields of an LFO (R61): rate in millihertz. -/
structure LfoProg where
  rate  : Nat
  shape : Shape
  phase : Nat
  deriving DecidableEq, Repr

/-- The program and stored values of an instance (R69) without the loaded-from slot: what a preset record
becomes at LOAD (R75, R134). -/
structure Program where
  name       : List Byte
  lines      : List LineProg
  taps       : List TapProg
  lfo0       : LfoProg
  lfo1       : LfoProg
  inGain     : Nat
  outGain    : Nat
  glide      : Nat
  tailFloor  : Nat
  quiet      : Nat
  spillLimit : Nat
  deriving DecidableEq, Repr

/-! ### Instances (R69) -/

inductive InstState where
  | empty | ready | waiting | running | held | spilling | cutting
  deriving DecidableEq, Repr

inductive StopReason where
  | none | user | stolen | limit
  deriving DecidableEq, Repr

/-- A window-end decision that its event has not yet acted on (R112, R113). -/
inductive Decision where
  | release | limit
  deriving DecidableEq, Repr

/-- The four routes (R71). -/
structure Routing where
  inA  : Option PortNo
  inB  : Option PortNo
  outA : Option PortNo
  outB : Option PortNo
  deriving DecidableEq, Repr

/-- Running fields of a line (R7, R27). -/
structure LineRun where
  w     : Nat
  f     : Nat
  pool  : Pool
  pages : List Nat
  deriving DecidableEq, Repr

/-- Running fields of a tap (R30). -/
structure TapRun where
  target   : Nat
  glide    : Nat
  gain     : Int
  heldRead : Int
  damping  : Int
  deriving DecidableEq, Repr

/-- Running fields of an LFO (R61). -/
structure LfoRun where
  phase : Nat
  inc   : Nat
  deriving DecidableEq, Repr

/-- The running fields an instance has while it holds pages (R27, R30, R33, R61, R15, R109). -/
structure Running where
  lines          : List LineRun
  taps           : List TapRun
  lfo0           : LfoRun
  lfo1           : LfoRun
  inGain         : Nat
  outGain        : Nat
  cost           : Nat
  windowProgress : Nat
  windowPeak     : Nat
  deriving DecidableEq, Repr

/-- One instance context (R69). `decision` is a window-end decision not yet acted on (R113); `releaseDue` is a
reported cut completion whose release is not yet taken (R26, R106). -/
structure Inst where
  state        : InstState
  slot         : Option SlotNo
  program      : Option Program
  routing      : Routing
  running      : Option Running
  lastLevel    : Option Nat
  quietCount   : Nat
  spillWindows : Nat
  clip         : Bool
  stopReason   : StopReason
  decision     : Option Decision
  releaseDue   : Bool
  deriving DecidableEq, Repr

/-! ### The part in RUN (R4, R5, R16, R192) -/

inductive SampleRate where
  | r48 | r96
  deriving DecidableEq, Repr

inductive FarSize where
  | p1024 | p2048 | p4096
  deriving DecidableEq, Repr

inductive Polarity where
  | activeLow | activeHigh
  deriving DecidableEq, Repr

/-- An owner entry of the page owner table (R5). -/
structure Owner where
  inst : InstNo
  line : Nat
  deriving DecidableEq, Repr

/-- What the part holds in RUN only: the setup record (R192) and the page pool (R4, R5, R16, R20). -/
structure Run where
  rate        : SampleRate
  farSize     : FarSize
  polarity    : Polarity
  nearFree    : List Nat
  farFree     : List Nat
  nearOwner   : List (Option Owner)
  farOwner    : List (Option Owner)
  budgetInUse : Nat
  deriving DecidableEq, Repr

/-! ### Delay memory (R1 to R3, R149) -/

/-- A DRAM word: 24 sample bits and 6 code bits (R3). -/
structure DramWord where
  sample : BitVec 24
  code   : BitVec 6
  deriving DecidableEq, Repr

/-! ### Memory service (chapter 08) -/

/-- A queued write-back (R154). -/
structure WriteBack where
  addr   : Nat
  sample : Int
  deriving DecidableEq, Repr

/-- The location of a FAR word (R156); the owner is what the page owner table holds at that moment. -/
structure Location where
  page   : Nat
  offset : Nat
  owner  : Option Owner
  deriving DecidableEq, Repr

/-- The error record (R156). -/
structure ErrorRecord where
  corrected     : Nat
  lastCorrected : Option Location
  uncorrectable : Nat
  firstUncorr   : Option Location
  dropped       : Nat
  deriving DecidableEq, Repr

/-- What a line access does: LINE_READ, or LINE_WRITE with its samples in word order (R161). -/
inductive AccessOp where
  | read
  | write (samples : List Int)
  deriving DecidableEq, Repr

/-- The line access in flight (R161 to R166). `positions` are the fixed logical positions of all its words (R162),
`served` the number of words done, `got` the samples read so far in word order. `frameSeen` tells that a frame
start has been taken since the acceptance, which a NEAR access waits for (R163). -/
structure LineAccess where
  tag       : Byte
  op        : AccessOp
  inst      : InstNo
  line      : Nat
  pool      : Pool
  positions : List Nat
  served    : Nat
  got       : List Int
  bad       : Nat
  frameSeen : Bool
  deriving DecidableEq, Repr

/-! ### Cue unit (chapter 06) -/

inductive CueAction where
  | load | start | stopSpill | stopCut | hold | unhold | set
  deriving DecidableEq, Repr

/-- A cue entry with its fields exactly as the CUE_ADD carried them (R118). -/
structure CueEntry where
  action : CueAction
  inst   : InstNo
  slot   : Byte
  ident  : Byte
  index  : Byte
  value  : BitVec 32
  deriving DecidableEq, Repr

inductive GoOrigin where
  | request (tag : Byte)
  | pin
  deriving DecidableEq, Repr

/-- The cue unit (R118, R122). `due` tells that the boundary frame start has been taken and the application event
has not (R125). -/
structure Cue where
  list        : List CueEntry
  fired       : List CueEntry
  pendingFlag : Bool
  origin      : Option GoOrigin
  due         : Bool
  deriving DecidableEq, Repr

/-! ### Tempo unit (R49) -/

structure Tempo where
  tempo     : Nat
  tapMode   : Bool
  intervals : List Nat
  lastTap   : Option Nat
  deriving DecidableEq, Repr

/-! ### Preset library (R133) -/

/-- A stored record: its bytes as the STORE carried them (R133, R142), and the program they spell (R204). Log 22. -/
structure PresetRecord where
  bytes   : List Byte
  program : Program
  deriving DecidableEq, Repr

structure LibSlot where
  record    : Option PresetRecord
  guarded : Bool
  deriving DecidableEq, Repr

/-! ### Audio ports and frame clock (chapter 09) -/

/-- Input samples of the frame (R170), pending set with the values that were clamped (R171, R172), and transmit set
(R171). -/
structure Ports where
  inputs      : Vector Int 32
  pending     : Vector Int 32
  pendingClip : BitVec 32
  transmit    : Vector Int 32
  deriving DecidableEq, Repr

inductive LockState where
  | locked | free
  deriving DecidableEq, Repr

/-- The frame clock monitor (R174). `sinceMark` is the time since the mark in reference ticks, absent with the mark;
`sinceFrame` is the time since the last frame start, or since power-up or the release of RESET (R181), from which the
internal frame timer's schedule follows (R177). Log 3. -/
structure Monitor where
  lock       : LockState
  good       : Nat
  bad        : Nat
  sinceMark  : Option Nat
  sinceFrame : Nat
  deriving DecidableEq, Repr

/-! ### Control link (chapter 10) -/

/-- A complete request frame: TAG, KIND and body (R183). -/
structure Frame where
  tag  : Byte
  kind : Byte
  body : List Byte
  deriving DecidableEq, Repr

/-- The receiver (R183): in LENGTH the first LEN byte once it is kept; in BODY the bytes still to come and the bytes
kept so far, oldest first. -/
inductive Receiver where
  | hunting
  | length (first : Option Byte)
  | body (toCome : Nat) (kept : List Byte)
  deriving DecidableEq, Repr

inductive Status where
  | ok | clamped | busy | badState | badArg | badRecord | noRoom | protectedSlot | full | empty | aborted
  | unknownKind | badLength | notReady | memoryAbsent
  deriving DecidableEq, Repr

/-- A placed reply (R186, R187): the TAG and KIND bytes it carries, its status and its body. -/
structure Reply where
  tag    : Byte
  kind   : Byte
  status : Status
  body   : List Byte
  deriving DecidableEq, Repr

/-- The link interface and the outbox (R183, R185, R186, R187, R188). `reserved` counts the places reserved for
requests in flight; `headSent` counts the bytes of the head reply wholly sent. -/
structure Link where
  receiver  : Receiver
  inbox     : List Frame
  sendOrder : List Reply
  reserved  : Nat
  headSent  : Nat
  polarity  : Polarity
  deriving DecidableEq, Repr

/-! ### Notice unit (R196) -/

inductive BadFrameCause where
  | stray | length | deselect
  deriving DecidableEq, Repr

/-- The counts of one application (R129). -/
structure CueCounts where
  applied : Nat
  skipped : Nat
  first   : Option Nat
  deriving DecidableEq, Repr

structure GroupConfig where
  enabled  : Bool
  priority : Nat
  deriving DecidableEq, Repr

/-- The flags of the six groups with their details and masks, and the configuration of each group (R196, R197). A flag
with a detail is pending when its detail is present, a mask flag while any of its bits is set. -/
structure Notices where
  holdover      : Bool
  lockRestored  : Bool
  outClip       : BitVec 32
  corrected     : Option Location
  uncorrectable : Option Location
  dropped       : Option Nat
  released      : BitVec 24
  stolen        : BitVec 24
  startFailed   : BitVec 24
  admitted      : BitVec 24
  clipped       : BitVec 24
  limit         : BitVec 24
  applied       : Option CueCounts
  tapTempo      : Option Nat
  overrun       : Option Byte
  badFrame      : Option BadFrameCause
  portCfg       : GroupConfig
  memoryCfg     : GroupConfig
  instCfg       : GroupConfig
  cueCfg        : GroupConfig
  tempoCfg      : GroupConfig
  linkCfg       : GroupConfig
  deriving DecidableEq, Repr

/-! ### The state -/

/-- The whole machine. `pending` is the queue of commands, first in first out, and `powerUps` the number of power-ups
taken, on which the free power-up contents of the memories depend (log 6): these two are the model's own. -/
structure State where
  pending     : List Instr
  powerUps    : Nat
  resetPin    : Bool
  run         : Option Run
  instances   : Vector Inst 24
  queue       : List InstNo
  spill       : List InstNo
  library     : Vector LibSlot 64
  tempo       : Tempo
  cue         : Cue
  near        : List (Nat × BitVec 24)
  dram        : List (Nat × DramWord)
  corrections : List WriteBack
  errors      : ErrorRecord
  access      : Option LineAccess
  serviceDue  : Option Nat
  ports       : Ports
  monitor     : Monitor
  link        : Link
  notices     : Notices
  deriving DecidableEq, Repr

/-! ### After power-up -/

/-- All four routes NONE (R71). -/
def Routing.none : Routing :=
  { inA := Option.none, inB := Option.none, outA := Option.none, outB := Option.none }

/-- An EMPTY instance with the given routing (R76, R94, R95). -/
def Inst.emptyWith (r : Routing) : Inst :=
  { state := .empty, slot := none, program := none, routing := r, running := none, lastLevel := none,
    quietCount := 0, spillWindows := 0, clip := false, stopReason := .none, decision := none, releaseDue := false }

/-- The tempo unit after power-up and the RESET pin (R56). -/
def Tempo.reset : Tempo :=
  { tempo := 12000, tapMode := true, intervals := [], lastTap := none }

/-- The cue unit after every reset (R131, R132). -/
def Cue.reset : Cue :=
  { list := [], fired := [], pendingFlag := false, origin := none, due := false }

/-- The error record after every reset (R167, R168). -/
def ErrorRecord.reset : ErrorRecord :=
  { corrected := 0, lastCorrected := none, uncorrectable := 0, firstUncorr := none, dropped := 0 }

/-- The audio ports after power-up and the RESET pin (R181). -/
def Ports.reset : Ports :=
  { inputs := Vector.replicate 32 0, pending := Vector.replicate 32 0, pendingClip := 0,
    transmit := Vector.replicate 32 0 }

/-- The monitor after power-up and at the release of the RESET pin (R181). -/
def Monitor.reset : Monitor :=
  { lock := .free, good := 0, bad := 0, sinceMark := none, sinceFrame := 0 }

/-- The link after power-up and the RESET pin (R201). -/
def Link.reset : Link :=
  { receiver := .hunting, inbox := [], sendOrder := [], reserved := 0, headSent := 0, polarity := .activeLow }

/-- Every group enabled at its default priority with every flag clear (R196, R197). -/
def Notices.reset : Notices :=
  { holdover := false, lockRestored := false, outClip := 0, corrected := none, uncorrectable := none, dropped := none,
    released := 0, stolen := 0, startFailed := 0, admitted := 0, clipped := 0, limit := 0, applied := none,
    tapTempo := none, overrun := none, badFrame := none,
    portCfg := ⟨true, 3⟩, memoryCfg := ⟨true, 3⟩, instCfg := ⟨true, 2⟩, cueCfg := ⟨true, 2⟩, tempoCfg := ⟨true, 1⟩,
    linkCfg := ⟨true, 1⟩ }

/-- The machine right after power-up (R191): SETUP, no setup record, every instance EMPTY (R94), an empty library (R147),
no pools (R22), nothing written in either memory (R2, R3), with the RESET pin released (log 14). -/
def State.reset : State :=
  { pending := [], powerUps := 0, resetPin := false, run := none,
    instances := Vector.replicate 24 (Inst.emptyWith Routing.none), queue := [], spill := [],
    library := Vector.replicate 64 ⟨none, false⟩, tempo := Tempo.reset, cue := Cue.reset, near := [], dram := [],
    corrections := [], errors := ErrorRecord.reset, access := none, serviceDue := none, ports := Ports.reset,
    monitor := Monitor.reset, link := Link.reset, notices := Notices.reset }

end Sys2Proof.Machine
end

