-- ==== Sys2Proof/Machine/Arith.lean ====
section
/-! DEFINITION. The exact integer arithmetic of 00 "Conventions" and the constants that follow from the setup record.
On `Int`, `/` by a positive divisor is floor and `%` is the remainder in 0 to m − 1. -/

namespace Sys2Proof.Machine

/-- `x` clamped to `lo … hi` (00: a clamp includes both ends). -/
def clampInt (lo hi x : Int) : Int :=
  if x < lo then lo else if hi < x then hi else x

/-- round15(x) = floor((x + 16384) / 32768) (00 "Arithmetic"). -/
def round15 (x : Int) : Int :=
  (x + 16384) / 32768

/-- sat24(x): x clamped to −8,388,608 … 8,388,607 (00 "Arithmetic"). -/
def sat24 (x : Int) : Int :=
  clampInt (-8388608) 8388607 x

/-- Whether sat24 clamps its argument (R40, R172). -/
def sat24Clamps (x : Int) : Bool :=
  sat24 x != x

/-- bitlength(x) (00 "Arithmetic"). -/
def bitlength (x : Nat) : Nat :=
  if x = 0 then 0 else Nat.log2 x + 1

/-- round(a / b) = floor((2 × a + b) / (2 × b)) (R55). -/
def roundDiv (a b : Nat) : Nat :=
  (2 * a + b) / (2 * b)

/-- The movement of a current value toward a target by a step (R32): the target when it is no farther than the step. -/
def moveInt (step cur target : Int) : Int :=
  if (target - cur).natAbs ≤ step.natAbs then target else if cur < target then cur + step else cur - step

/-- The same movement of a value that is never negative (R32, R59). -/
def moveNat (step cur target : Nat) : Nat :=
  if (target - cur) + (cur - target) ≤ step then target else if cur < target then cur + step else cur - step

/-- Fs in hertz (R192). -/
def SampleRate.hz : SampleRate → Nat
  | .r48 => 48000
  | .r96 => 96000

/-- The access budget B (R13). -/
def SampleRate.budget : SampleRate → Nat
  | .r48 => 1536
  | .r96 => 768

/-- Nominal frame period in reference ticks (R174). -/
def SampleRate.nominal : SampleRate → Nat
  | .r48 => 512
  | .r96 => 256

/-- The shortest good period (R174). -/
def SampleRate.goodLow : SampleRate → Nat
  | .r48 => 502
  | .r96 => 251

/-- The longest good period (R174). -/
def SampleRate.goodHigh : SampleRate → Nat
  | .r48 => 522
  | .r96 => 261

/-- When the edge watch expires after the mark (R174). -/
def SampleRate.watch : SampleRate → Nat
  | .r48 => 523
  | .r96 => 262

/-- The FAR pool size in pages (R3). -/
def FarSize.pages : FarSize → Nat
  | .p1024 => 1024
  | .p2048 => 2048
  | .p4096 => 4096

/-- Sample words in a page (R1). -/
def pageWords : Nat :=
  2048

end Sys2Proof.Machine
end

