-- ==== Sys2Proof/Machine/Operands.lean ====
section
/-! DEFINITION. Reading the operands of requests from their bytes, and writing replies' fields as bytes: chapter 11.
Multi-byte fields are most significant byte first (R202). -/

namespace Sys2Proof.Machine

/-! ### Fields -/

/-- The unsigned value of bytes, most significant first (R202). -/
def beVal (bs : List Byte) : Nat :=
  bs.foldl (fun n b => n * 256 + b.toNat) 0

/-- `n` as `k` bytes, most significant first (R202). -/
def beBytes : Nat → Nat → List Byte
  | 0, _ => []
  | k + 1, n => BitVec.ofNat 8 (n / 256 ^ k) :: beBytes k n

/-- A u1 field. -/
def u1 (n : Nat) : List Byte := beBytes 1 n
/-- A u2 field. -/
def u2 (n : Nat) : List Byte := beBytes 2 n
/-- A u3 field: a mask of 24 instances (R205). -/
def u3 (n : Nat) : List Byte := beBytes 3 n
/-- A u4 field. -/
def u4 (n : Nat) : List Byte := beBytes 4 n
/-- An s2 field. -/
def s2 (x : Int) : List Byte := beBytes 2 (BitVec.ofInt 16 x).toNat
/-- A sample, s3 (R202). -/
def s3 (x : Int) : List Byte := beBytes 3 (BitVec.ofInt 24 x).toNat
/-- An s4 field. -/
def s4 (x : Int) : List Byte := beBytes 4 (BitVec.ofInt 32 x).toNat
/-- A boolean, a u1 of 0 or 1 (R202). -/
def boolByte (b : Bool) : List Byte := u1 (if b then 1 else 0)
/-- An optional u1 field, 0xFF when absent (R202). -/
def optByte : Option Nat → List Byte
  | some n => u1 n
  | none => u1 0xFF

/-- The byte at an offset. -/
def byteAt (bs : List Byte) (k : Nat) : Byte := bs.getD k 0
/-- The u1 field at an offset. -/
def u1At (bs : List Byte) (k : Nat) : Nat := (byteAt bs k).toNat
/-- The unsigned field of `n` bytes at an offset. -/
def uAt (n : Nat) (bs : List Byte) (k : Nat) : Nat := beVal ((bs.drop k).take n)
/-- The s2 field at an offset. -/
def s2At (bs : List Byte) (k : Nat) : Int := (BitVec.ofNat 16 (uAt 2 bs k)).toInt
/-- The s3 field at an offset. -/
def s3At (bs : List Byte) (k : Nat) : Int := (BitVec.ofNat 24 (uAt 3 bs k)).toInt

/-- The instance a byte names, none at 24 or more (R73). -/
def instOf (b : Byte) : Option InstNo :=
  if h : b.toNat < 24 then some ⟨b.toNat, h⟩ else none

/-- The library slot a byte names, none at 64 or more (R136). -/
def slotOf (b : Byte) : Option SlotNo :=
  if h : b.toNat < 64 then some ⟨b.toNat, h⟩ else none

/-! ### Code tables (chapter 11) -/

/-- The code of an instance state. -/
def InstState.code : InstState → Nat
  | .empty => 0
  | .ready => 1
  | .waiting => 2
  | .running => 3
  | .held => 4
  | .spilling => 5
  | .cutting => 6

/-- The code of a stop reason. -/
def StopReason.code : StopReason → Nat
  | .none => 0
  | .user => 1
  | .stolen => 2
  | .limit => 3

/-- The byte of a status. -/
def Status.code : Status → Nat
  | .ok => 0x00
  | .clamped => 0x01
  | .busy => 0x02
  | .badState => 0x03
  | .badArg => 0x04
  | .badRecord => 0x05
  | .noRoom => 0x06
  | .protectedSlot => 0x07
  | .full => 0x08
  | .empty => 0x09
  | .aborted => 0x0A
  | .unknownKind => 0x0B
  | .badLength => 0x0C
  | .notReady => 0x0D
  | .memoryAbsent => 0x0E

/-- The code of a cue action. -/
def CueAction.code : CueAction → Nat
  | .load => 1
  | .start => 2
  | .stopSpill => 3
  | .stopCut => 4
  | .hold => 5
  | .unhold => 6
  | .set => 7

/-- The cue action of a code (R119). -/
def CueAction.ofCode (b : Byte) : Option CueAction :=
  match b.toNat with
  | 1 => some .load
  | 2 => some .start
  | 3 => some .stopSpill
  | 4 => some .stopCut
  | 5 => some .hold
  | 6 => some .unhold
  | 7 => some .set
  | _ => none

/-- The cause byte of a BAD_FRAME detail (R205). -/
def BadFrameCause.code : BadFrameCause → Nat
  | .stray => 0
  | .length => 1
  | .deselect => 2

/-- The code of an ATN polarity. -/
def Polarity.code : Polarity → Nat
  | .activeLow => 0
  | .activeHigh => 1

/-- The request kinds (R189, R203). -/
inductive Kind where
  | identify | partStatus | setup | softReset | poolStatus
  | store | fetch | erase | protect | list
  | load | unload | start | stop | hold | unhold | set | get | instanceStatus
  | cueAdd | cueClear | cueList | go
  | tempoSet | tempoGet | tapMode
  | memErrors | lineRead | lineWrite
  | noticeRead | noticeClear | noticeConfig
  deriving DecidableEq, Repr

/-- The kind of a KIND byte, none where it is not a request kind (R203). -/
def Kind.ofByte (b : Byte) : Option Kind :=
  match b.toNat with
  | 0x01 => some .identify
  | 0x02 => some .partStatus
  | 0x03 => some .setup
  | 0x04 => some .softReset
  | 0x05 => some .poolStatus
  | 0x10 => some .store
  | 0x11 => some .fetch
  | 0x12 => some .erase
  | 0x13 => some .protect
  | 0x14 => some .list
  | 0x20 => some .load
  | 0x21 => some .unload
  | 0x22 => some .start
  | 0x23 => some .stop
  | 0x24 => some .hold
  | 0x25 => some .unhold
  | 0x26 => some .set
  | 0x27 => some .get
  | 0x28 => some .instanceStatus
  | 0x30 => some .cueAdd
  | 0x31 => some .cueClear
  | 0x32 => some .cueList
  | 0x33 => some .go
  | 0x40 => some .tempoSet
  | 0x41 => some .tempoGet
  | 0x42 => some .tapMode
  | 0x50 => some .memErrors
  | 0x51 => some .lineRead
  | 0x52 => some .lineWrite
  | 0x60 => some .noticeRead
  | 0x61 => some .noticeClear
  | 0x62 => some .noticeConfig
  | _ => none

/-- The KIND byte of a GO request (R203). -/
def kindGo : Byte := 0x33
/-- The KIND byte of a LINE_READ request (R203). -/
def kindLineRead : Byte := 0x51
/-- The KIND byte of a LINE_WRITE request (R203). -/
def kindLineWrite : Byte := 0x52

/-- The KIND byte of a reply: KIND + 0x80, or 0xFF where the request KIND was 0x80 or above (R187). -/
def replyKind (k : Byte) : Byte :=
  if k.toNat < 0x80 then k + 0x80 else 0xFF

/-- Whether a body has the length the layout of its kind gives, a count being read as carried (R189, R203). -/
def Kind.lengthOk (k : Kind) (body : List Byte) : Bool :=
  let n := body.length
  match k with
  | .identify | .partStatus | .softReset | .poolStatus | .cueClear | .cueList | .go | .tempoGet | .noticeRead => n == 0
  | .setup | .set => n == 7
  | .store => decide (33 ≤ n ∧ n ≤ 465)
  | .fetch | .erase | .unload | .start | .hold | .unhold | .instanceStatus | .tapMode | .memErrors => n == 1
  | .protect | .list | .load | .stop | .tempoSet => n == 2
  | .get | .noticeConfig => n == 3
  | .cueAdd => n == 9
  | .lineRead => n == 8
  | .lineWrite => decide (8 ≤ n) && n == 8 + 3 * uAt 2 body 6
  | .noticeClear => decide (1 ≤ n) && n == 1 + 20 * u1At body 0

/-- Whether a kind is served in SETUP (R189, table). SOFT_RESET is not, and has a refusal of its own. -/
def Kind.servedInSetup : Kind → Bool
  | .identify | .partStatus | .setup | .store | .fetch | .erase | .protect | .list
  | .tempoSet | .tempoGet | .tapMode | .noticeRead | .noticeClear | .noticeConfig => true
  | .softReset | .poolStatus | .load | .unload | .start | .stop | .hold | .unhold | .set | .get | .instanceStatus
  | .cueAdd | .cueClear | .cueList | .go | .memErrors | .lineRead | .lineWrite => false

/-! ### Setup record (R192) -/

/-- The sample rate of a setup record, none outside its domain. -/
def rateOf (n : Nat) : Option SampleRate :=
  if n = 48000 then some .r48 else if n = 96000 then some .r96 else none

/-- The FAR pool size of a setup record, none outside its domain. -/
def farSizeOf (n : Nat) : Option FarSize :=
  if n = 1024 then some .p1024 else if n = 2048 then some .p2048 else if n = 4096 then some .p4096 else none

/-- The ATN polarity of a setup record, none outside its domain. -/
def polarityOf (n : Nat) : Option Polarity :=
  if n = 0 then some .activeLow else if n = 1 then some .activeHigh else none

/-- The setup record as 7 bytes. -/
def setupBytes (rate : SampleRate) (size : FarSize) (pol : Polarity) : List Byte :=
  u4 rate.hz ++ u2 size.pages ++ u1 pol.code

/-! ### Preset record (R134, R204) -/

/-- Bits `hi … lo` of a number (R204: bit fields are unsigned). -/
def bits (hi lo n : Nat) : Nat :=
  n / 2 ^ lo % 2 ^ (hi - lo + 1)

/-- The placement of a code, none for an invalid one (R204). -/
def placementOf (n : Nat) : Option Placement :=
  match n with
  | 0 => some .near
  | 1 => some .far
  | 2 => some .any
  | _ => none

/-- The input feed of a code, none for an invalid one (R204). -/
def feedOf (n : Nat) : Option Feed :=
  match n with
  | 0 => some .none
  | 1 => some .a
  | 2 => some .b
  | 3 => some .mid
  | _ => none

/-- The source of a code, none for an invalid one (R204). -/
def sourceOf (n : Nat) : Option Source :=
  match n with
  | 0 => some .fixed
  | 1 => some .tempo
  | _ => none

/-- The lfo selection of a code, none for an invalid one (R204). -/
def lfoSelOf (n : Nat) : Option LfoSel :=
  match n with
  | 0 => some .none
  | 1 => some .lfo0
  | 2 => some .lfo1
  | _ => none

/-- The destination of a code, none for an invalid one (R204). -/
def destOf (n : Nat) : Option Dest :=
  if n < 8 then some (.line n) else if n = 8 then some .outA else if n = 9 then some .outB else none

/-- The hold flag of a code, none for an invalid one (R204). -/
def holdOf (n : Nat) : Option Bool :=
  match n with
  | 0 => some false
  | 1 => some true
  | _ => none

/-- The shape of a code, none for an invalid one (R204). -/
def shapeOf (n : Nat) : Option Shape :=
  match n with
  | 0 => some .triangle
  | 1 => some .smooth
  | _ => none

/-- The code of a source. -/
def Source.code : Source → Nat
  | .fixed => 0
  | .tempo => 1

/-- The code of an lfo selection. -/
def LfoSel.code : LfoSel → Nat
  | .none => 0
  | .lfo0 => 1
  | .lfo1 => 2

/-- The code of a shape. -/
def Shape.code : Shape → Nat
  | .triangle => 0
  | .smooth => 1

/-- Offset of line entry `j` in a record (R204). -/
def lineOffset (j : Nat) : Nat := 32 + 4 * j
/-- Offset of tap entry `t` in a record with `nl` lines (R204). -/
def tapOffset (nl t : Nat) : Nat := 32 + 4 * nl + 12 * t
/-- Offset of LFO entry `m` in a record with `nl` lines and `nt` taps (R204). -/
def lfoOffset (nl nt m : Nat) : Nat := 32 + 4 * nl + 12 * nt + 8 * m

/-- The raw fields of the tap entry that starts at offset `o` (R204). -/
structure TapRaw where
  gain   : Int
  depth  : Nat
  damp   : Nat
  source : Nat
  dest   : Nat
  fixed  : Nat
  line   : Nat
  lfo    : Nat
  hold   : Nat
  ticks  : Nat
  deriving DecidableEq, Repr

/-- Reads the tap entry at offset `o` (R204). -/
def tapRawAt (r : List Byte) (o : Nat) : TapRaw :=
  { gain := s2At r o, depth := uAt 2 r (o + 2), damp := uAt 2 r (o + 4),
    source := bits 31 30 (uAt 4 r (o + 6)), dest := bits 29 26 (uAt 4 r (o + 6)), fixed := bits 25 0 (uAt 4 r (o + 6)),
    line := bits 15 13 (uAt 2 r (o + 10)), lfo := bits 12 11 (uAt 2 r (o + 10)), hold := bits 10 9 (uAt 2 r (o + 10)),
    ticks := bits 8 0 (uAt 2 r (o + 10)) }

/-- The line entry at offset `o`, none where a field fails its check (R140). -/
def lineProgAt (r : List Byte) (o : Nat) : Option LineProg :=
  match placementOf (u1At r o), feedOf (u1At r (o + 2)) with
  | some p, some f => some { placement := p, length := u1At r (o + 1), feed := f }
  | _, _ => none

/-- The tap entry at offset `o`, none where a code is invalid (R140). -/
def tapProgAt (r : List Byte) (o : Nat) : Option TapProg :=
  let t := tapRawAt r o
  match sourceOf t.source, lfoSelOf t.lfo, destOf t.dest, holdOf t.hold with
  | some s, some l, some d, some h =>
    some { line := t.line, source := s, fixed := t.fixed, ticks := t.ticks, lfo := l, depth := t.depth, gain := t.gain,
           damp := t.damp, dest := d, hold := h }
  | _, _, _, _ => none

/-- The LFO entry at offset `o`, none where the shape code is invalid (R140). -/
def lfoProgAt (r : List Byte) (o : Nat) : Option LfoProg :=
  match shapeOf (u1At r (o + 2)) with
  | some s => some { rate := uAt 2 r o, shape := s, phase := uAt 2 r (o + 3) }
  | none => none

/-- All of a list's values, or none where one is missing. -/
def allSome {α : Type} : List (Option α) → Option (List α)
  | [] => some []
  | none :: _ => none
  | some x :: rest =>
    match allSome rest with
    | some xs => some (x :: xs)
    | none => none

/-- The program a record's bytes spell (R75, R204), none where a code is invalid. -/
def programOf (r : List Byte) : Option Program :=
  let nl := u1At r 16
  let nt := u1At r 17
  match allSome ((List.range nl).map fun j => lineProgAt r (lineOffset j)),
        allSome ((List.range nt).map fun t => tapProgAt r (tapOffset nl t)),
        lfoProgAt r (lfoOffset nl nt 0), lfoProgAt r (lfoOffset nl nt 1) with
  | some ls, some ts, some l0, some l1 =>
    some { name := r.take 16, lines := ls, taps := ts, lfo0 := l0, lfo1 := l1, inGain := (s2At r 18).toNat,
           outGain := (s2At r 20).toNat, glide := uAt 2 r 22, tailFloor := u1At r 24, quiet := u1At r 25,
           spillLimit := uAt 2 r 26 }
  | _, _, _, _ => none

/-- The first check of a list that fails, as its index counted from `k` (R135). -/
def firstFault : Nat → List Bool → Option Nat
  | _, [] => none
  | k, true :: rest => firstFault (k + 1) rest
  | k, false :: _ => some k

/-- The name passes: not empty, printable up to the first zero fill, zero fill after it (R138). -/
def nameOk (name : List Byte) : Bool :=
  let chars := name.takeWhile (fun c => c != 0)
  let fill := name.dropWhile (fun c => c != 0)
  !chars.isEmpty && chars.all (fun c => decide (0x20 ≤ c.toNat ∧ c.toNat ≤ 0x7E)) && fill.all (fun c => c == 0)

/-- The header checks in index order 0 to 8 (R138). -/
def headerChecks (r : List Byte) : List Bool :=
  [ nameOk (r.take 16),
    decide (1 ≤ u1At r 16 ∧ u1At r 16 ≤ 8),
    decide (1 ≤ u1At r 17 ∧ u1At r 17 ≤ 32),
    decide (0 ≤ s2At r 18 ∧ s2At r 18 ≤ 32767),
    decide (0 ≤ s2At r 20 ∧ s2At r 20 ≤ 32767),
    true,
    decide (u1At r 24 ≤ 8),
    decide (1 ≤ u1At r 25 ∧ u1At r 25 ≤ 15),
    decide (1 ≤ uAt 2 r 26) ]

/-- The checks of a line entry: placement, length, feed (R140). -/
def lineChecks (r : List Byte) (o : Nat) : List Bool :=
  [ (placementOf (u1At r o)).isSome,
    decide (1 ≤ u1At r (o + 1) ∧ u1At r (o + 1) ≤ if placementOf (u1At r o) = some .near then 4 else 128),
    (feedOf (u1At r (o + 2))).isSome ]

/-- Whether a destination code is valid in a program of `nl` lines (R140). -/
def destOk (nl n : Nat) : Bool :=
  match destOf n with
  | some (.line k) => decide (k < nl)
  | some .outA => true
  | some .outB => true
  | none => false

/-- The checks of a tap entry in a record of `nl` lines: line, source, fixed delay, ticks, lfo, depth, gain, damp,
destination, hold (R135, R140). -/
def tapChecks (r : List Byte) (nl o : Nat) : List Bool :=
  let t := tapRawAt r o
  [ decide (t.line < nl),
    (sourceOf t.source).isSome,
    decide (256 ≤ t.fixed ∧ t.fixed ≤ 67108352),
    decide (1 ≤ t.ticks ∧ t.ticks ≤ 384),
    (lfoSelOf t.lfo).isSome,
    true,
    true,
    decide (t.damp ≤ 32767),
    destOk nl t.dest,
    (holdOf t.hold).isSome ]

/-- The checks of an LFO entry: rate, shape, start phase (R140). -/
def lfoChecks (r : List Byte) (o : Nat) : List Bool :=
  [ decide (10 ≤ uAt 2 r o ∧ uAt 2 r o ≤ 20000),
    (shapeOf (u1At r (o + 2))).isSome,
    true ]

/-- The checks of every entry, in index order (R135, R140). -/
def entryChecks (r : List Byte) : List Bool :=
  let nl := u1At r 16
  let nt := u1At r 17
  ((List.range nl).flatMap fun j => lineChecks r (lineOffset j))
    ++ ((List.range nt).flatMap fun t => tapChecks r nl (tapOffset nl t))
    ++ lfoChecks r (lfoOffset nl nt 0) ++ lfoChecks r (lfoOffset nl nt 1)

/-- The length a record's counts call for (R134, R139). -/
def recordLength (nl nt : Nat) : Nat :=
  32 + 4 * nl + 12 * nt + 16

/-- The field index of the first fault of a record part of 32 to 464 bytes, none where it passes (R137 to R140). -/
def recordFault (r : List Byte) : Option Nat :=
  match firstFault 0 (headerChecks r) with
  | some k => some k
  | none =>
    if r.length = recordLength (u1At r 16) (u1At r 17) then firstFault 9 (entryChecks r)
    else some (15 + 3 * u1At r 16 + 10 * u1At r 17)

/-! ### SET identifiers (R87) -/

inductive Ident where
  | inGain | outGain | glide | tapGain | tapSource | tapFixed | tapTicks | tapLfo | tapDepth | tapDamp
  | lfoRate | lfoShape | lfoPhase | tailFloor | tailQuiet | spillLimit | routeInA | routeInB | routeOutA | routeOutB
  deriving DecidableEq, Repr

/-- The identifier of a code, none for an unknown one (chapter 11, identifier table). -/
def Ident.ofCode (b : Byte) : Option Ident :=
  match b.toNat with
  | 0 => some .inGain
  | 1 => some .outGain
  | 2 => some .glide
  | 3 => some .tapGain
  | 4 => some .tapSource
  | 5 => some .tapFixed
  | 6 => some .tapTicks
  | 7 => some .tapLfo
  | 8 => some .tapDepth
  | 9 => some .tapDamp
  | 10 => some .lfoRate
  | 11 => some .lfoShape
  | 12 => some .lfoPhase
  | 13 => some .tailFloor
  | 14 => some .tailQuiet
  | 15 => some .spillLimit
  | 16 => some .routeInA
  | 17 => some .routeInB
  | 18 => some .routeOutA
  | 19 => some .routeOutB
  | _ => none

/-- The identifiers whose index names a tap (R87). -/
def Ident.ofTap : Ident → Bool
  | .tapGain | .tapSource | .tapFixed | .tapTicks | .tapLfo | .tapDepth | .tapDamp => true
  | .inGain | .outGain | .glide | .lfoRate | .lfoShape | .lfoPhase | .tailFloor | .tailQuiet | .spillLimit
  | .routeInA | .routeInB | .routeOutA | .routeOutB => false

/-- The identifiers whose index names an LFO (R87). -/
def Ident.ofLfo : Ident → Bool
  | .lfoRate | .lfoShape | .lfoPhase => true
  | .inGain | .outGain | .glide | .tapGain | .tapSource | .tapFixed | .tapTicks | .tapLfo | .tapDepth | .tapDamp
  | .tailFloor | .tailQuiet | .spillLimit | .routeInA | .routeInB | .routeOutA | .routeOutB => false

/-- Whether an index lies in the domain of its identifier (R87); one that ignores it takes any. -/
def Ident.indexOk (d : Ident) (index : Byte) : Bool :=
  (!d.ofTap || decide (index.toNat < 32)) && (!d.ofLfo || decide (index.toNat < 2))

/-- Whether a value lies in the domain of its identifier (R87): codes and routes are refused, never clamped. -/
def Ident.valueOk (d : Ident) (v : Int) : Bool :=
  match d with
  | .tapSource | .lfoShape => decide (0 ≤ v ∧ v ≤ 1)
  | .tapLfo => decide (0 ≤ v ∧ v ≤ 2)
  | .routeInA | .routeInB | .routeOutA | .routeOutB => decide ((0 ≤ v ∧ v ≤ 31) ∨ v = 255)
  | .inGain | .outGain | .glide | .tapGain | .tapFixed | .tapTicks | .tapDepth | .tapDamp | .lfoRate | .lfoPhase
  | .tailFloor | .tailQuiet | .spillLimit => true

/-- The stored range of an identifier (R87); for codes and routes, the range of the valid codes. -/
def Ident.range : Ident → Int × Int
  | .inGain | .outGain | .tapDamp => (0, 32767)
  | .glide | .tapDepth | .lfoPhase => (0, 65535)
  | .tapGain => (-32768, 32767)
  | .tapFixed => (256, 67108352)
  | .tapTicks => (1, 384)
  | .lfoRate => (10, 20000)
  | .tailFloor => (0, 8)
  | .tailQuiet => (1, 15)
  | .spillLimit => (1, 65535)
  | .tapSource | .lfoShape => (0, 1)
  | .tapLfo => (0, 2)
  | .routeInA | .routeInB | .routeOutA | .routeOutB => (0, 255)

/-- The stored value of a value sent: clamped to the nearer end of the range (R88). -/
def Ident.clamp (d : Ident) (v : Int) : Int :=
  clampInt d.range.1 d.range.2 v

/-- The route of a value: 0 to 31, or 255 for NONE (R87). -/
def routeOf (v : Int) : Option PortNo :=
  if h : v.toNat < 32 then some ⟨v.toNat, h⟩ else none

/-- The value of a route (R87, R91). -/
def routeValue : Option PortNo → Int
  | some p => (p.val : Int)
  | none => 255

end Sys2Proof.Machine
end

