-- ==== Sys2Proof/Machine/Flags.lean ====
section
/-! DEFINITION. The flags of the part: the notice unit (R196 to R200, R205). -/

namespace Sys2Proof.Machine

/-- The six groups in tie order (R196). -/
inductive Group where
  | port | memory | inst | cue | tempo | link
  deriving DecidableEq, Repr

/-- The groups in tie order, PORT first and LINK last (R196). -/
def Group.all : List Group :=
  [.port, .memory, .inst, .cue, .tempo, .link]

/-- The code of a group (R205). -/
def Group.code : Group → Nat
  | .port => 0
  | .memory => 1
  | .inst => 2
  | .cue => 3
  | .tempo => 4
  | .link => 5

/-- The group of a code (R198, R205). -/
def Group.ofCode (b : Byte) : Option Group :=
  match b.toNat with
  | 0 => some .port
  | 1 => some .memory
  | 2 => some .inst
  | 3 => some .cue
  | 4 => some .tempo
  | 5 => some .link
  | _ => none

/-- How many flags a group has (R205). -/
def Group.flagCount : Group → Nat
  | .port => 3
  | .memory => 3
  | .inst => 6
  | .cue => 1
  | .tempo => 1
  | .link => 2

/-- A group's configuration (R197). -/
def Notices.config (n : Notices) : Group → GroupConfig
  | .port => n.portCfg
  | .memory => n.memoryCfg
  | .inst => n.instCfg
  | .cue => n.cueCfg
  | .tempo => n.tempoCfg
  | .link => n.linkCfg

/-- Sets a group's configuration (R198). -/
def Notices.setConfig (g : Group) (c : GroupConfig) (n : Notices) : Notices :=
  match g with
  | .port => { n with portCfg := c }
  | .memory => { n with memoryCfg := c }
  | .inst => { n with instCfg := c }
  | .cue => { n with cueCfg := c }
  | .tempo => { n with tempoCfg := c }
  | .link => { n with linkCfg := c }

/-- A condition that a block raises (R196). -/
inductive Condition where
  | holdover
  | lockRestored
  | outClip (slots : BitVec 32)
  | corrected (l : Location)
  | uncorrectable (l : Location)
  | dropped (addr : Nat)
  | released (i : InstNo)
  | stolen (i : InstNo)
  | startFailed (i : InstNo)
  | admitted (i : InstNo)
  | clipped (i : InstNo)
  | limit (i : InstNo)
  | applied (c : CueCounts)
  | tapTempo (t : Nat)
  | overrun (tag : Byte)
  | badFrame (cause : BadFrameCause)
  deriving DecidableEq, Repr

/-- The group of a condition (R196). -/
def Condition.group : Condition → Group
  | .holdover | .lockRestored | .outClip _ => .port
  | .corrected _ | .uncorrectable _ | .dropped _ => .memory
  | .released _ | .stolen _ | .startFailed _ | .admitted _ | .clipped _ | .limit _ => .inst
  | .applied _ => .cue
  | .tapTempo _ => .tempo
  | .overrun _ | .badFrame _ => .link

/-- The mask with one instance's bit (R196). -/
def instBit (i : InstNo) : BitVec 24 :=
  BitVec.ofNat 24 (2 ^ i.val)

/-- Makes a condition's flag pending: its bit is set among those already set, or its detail replaces the earlier one
(R197). -/
def Notices.latch (c : Condition) (n : Notices) : Notices :=
  match c with
  | .holdover => { n with holdover := true }
  | .lockRestored => { n with lockRestored := true }
  | .outClip m => { n with outClip := n.outClip ||| m }
  | .corrected l => { n with corrected := some l }
  | .uncorrectable l => { n with uncorrectable := some l }
  | .dropped a => { n with dropped := some a }
  | .released i => { n with released := n.released ||| instBit i }
  | .stolen i => { n with stolen := n.stolen ||| instBit i }
  | .startFailed i => { n with startFailed := n.startFailed ||| instBit i }
  | .admitted i => { n with admitted := n.admitted ||| instBit i }
  | .clipped i => { n with clipped := n.clipped ||| instBit i }
  | .limit i => { n with limit := n.limit ||| instBit i }
  | .applied k => { n with applied := some k }
  | .tapTempo t => { n with tapTempo := some t }
  | .overrun t => { n with overrun := some t }
  | .badFrame k => { n with badFrame := some k }

/-- A condition raised: latched if its group is enabled, lost otherwise (R197). -/
def Notices.raise (c : Condition) (n : Notices) : Notices :=
  if (n.config c.group).enabled then n.latch c else n

/-- A block raises a condition within the raising event (R197). -/
def State.raise (c : Condition) (s : State) : State :=
  { s with notices := s.notices.raise c }

/-- Every flag clear with its mask and detail, each group's configuration kept (R195 step 3). -/
def Notices.clearAll (n : Notices) : Notices :=
  { Notices.reset with portCfg := n.portCfg, memoryCfg := n.memoryCfg, instCfg := n.instCfg, cueCfg := n.cueCfg,
                       tempoCfg := n.tempoCfg, linkCfg := n.linkCfg }

/-- The pending flags of a group, flag 0 first (R205: a mask flag is pending while any of its bits is set). -/
def Notices.flags (n : Notices) : Group → List Bool
  | .port => [n.holdover, n.lockRestored, n.outClip != 0]
  | .memory => [n.corrected.isSome, n.uncorrectable.isSome, n.dropped.isSome]
  | .inst => [n.released != 0, n.stolen != 0, n.startFailed != 0, n.admitted != 0, n.clipped != 0, n.limit != 0]
  | .cue => [n.applied.isSome]
  | .tempo => [n.tapTempo.isSome]
  | .link => [n.overrun.isSome, n.badFrame.isSome]

/-- Whether a group has a pending flag (R199). -/
def Notices.pending (n : Notices) (g : Group) : Bool :=
  (n.flags g).any id

/-- Whether a pending flag of a group holds ATN (R188, R198). -/
def Notices.holdsAtn (n : Notices) : Bool :=
  Group.all.any fun g => (n.config g).enabled && decide (1 ≤ (n.config g).priority) && n.pending g

/-- The pending set of a group: bit k is 1 when flag k is pending (R205). -/
def flagByte : List Bool → Nat
  | [] => 0
  | b :: rest => (if b then 1 else 0) + 2 * flagByte rest

/-- A location as 6 bytes (chapter 11). A word whose page has no owner, which no run reads, is written 0xFF, 0xFF
(log 21). -/
def Location.bytes (l : Location) : List Byte :=
  u2 l.page ++ u2 l.offset ++
    match l.owner with
    | some o => u1 o.inst.val ++ u1 o.line
    | none => u1 0xFF ++ u1 0xFF

/-- The detail of a location flag, zero where it is not pending (R205). -/
def locationDetail : Option Location → List Byte
  | some l => l.bytes
  | none => beBytes 6 0

/-- The details of a group in the widths of R205, zero for a flag that is not pending. -/
def Notices.details (n : Notices) : Group → List Byte
  | .port => u4 n.outClip.toNat
  | .memory => locationDetail n.corrected ++ locationDetail n.uncorrectable ++ u4 (n.dropped.getD 0)
  | .inst => u3 n.released.toNat ++ u3 n.stolen.toNat ++ u3 n.startFailed.toNat ++ u3 n.admitted.toNat
      ++ u3 n.clipped.toNat ++ u3 n.limit.toNat
  | .cue =>
    match n.applied with
    | some c => u1 c.applied ++ u1 c.skipped ++ optByte c.first
    | none => beBytes 3 0
  | .tempo => u2 (n.tapTempo.getD 0)
  | .link => [n.overrun.getD 0] ++
      match n.badFrame with
      | some k => u1 k.code
      | none => u1 0

/-- One group's block of the NOTICE_READ reply (R205). -/
def Notices.block (n : Notices) (g : Group) : List Byte :=
  u1 g.code ++ u1 (n.config g).priority ++ boolByte (n.config g).enabled ++ u1 (flagByte (n.flags g)) ++ n.details g

/-- The groups with a pending flag, in descending order of priority and then in tie order (R199). -/
def Notices.listed (n : Notices) : List Group :=
  [3, 2, 1, 0].flatMap fun p => Group.all.filter fun g => n.pending g && (n.config g).priority == p

/-- The body of the NOTICE_READ reply (R199, R205). -/
def Notices.readBody (n : Notices) : List Byte :=
  u1 n.listed.length ++ n.listed.flatMap n.block

/-! ### NOTICE_CLEAR (R200, R205) -/

/-- One entry of a NOTICE_CLEAR: its group, its flags byte and its 18 bytes of bits. -/
structure ClearEntry where
  group : Group
  flags : Nat
  bits  : List Byte
  deriving DecidableEq, Repr

/-- The entry at offset `o` of a body: none for an unknown group code or a flag not of its group (R200, R205). -/
def clearEntryAt (body : List Byte) (o : Nat) : Option ClearEntry :=
  match Group.ofCode (byteAt body o) with
  | some g =>
    if u1At body (o + 1) < 2 ^ g.flagCount then
      some { group := g, flags := u1At body (o + 1), bits := (body.drop (o + 2)).take 18 }
    else none
  | none => none

/-- The entries of a NOTICE_CLEAR body, none where it is refused BAD_ARG (R200, R205). -/
def clearEntries (body : List Byte) : Option (List ClearEntry) :=
  if 1 ≤ u1At body 0 ∧ u1At body 0 ≤ 6 then
    allSome ((List.range (u1At body 0)).map fun k => clearEntryAt body (1 + 20 * k))
  else none

/-- Bytes combined by inclusive or. -/
def orBytes (xs ys : List Byte) : List Byte :=
  List.zipWith (· ||| ·) xs ys

/-- The union of the entries of one group: their flags and their bits (R205). Log 17. -/
def clearUnion (g : Group) (es : List ClearEntry) : Nat × List Byte :=
  es.foldl (fun acc e => if e.group = g then (acc.1 ||| e.flags, orBytes acc.2 e.bits) else acc)
    (0, List.replicate 18 0)

/-- A mask with the named bits clear, where its flag is named (R200). -/
def clearMask (w : Nat) (flags k : Nat) (named : Nat) (m : BitVec w) : BitVec w :=
  if flags.testBit k then m &&& ~~~(BitVec.ofNat w named) else m

/-- A detail cleared, where its flag is named (R200). -/
def clearDetail {α : Type} (flags k : Nat) (d : Option α) : Option α :=
  if flags.testBit k then none else d

/-- Clears the named flags and bits of one group (R200). -/
def Notices.clearGroup (g : Group) (flags : Nat) (bits : List Byte) (n : Notices) : Notices :=
  match g with
  | .port =>
    { n with holdover := n.holdover && !flags.testBit 0, lockRestored := n.lockRestored && !flags.testBit 1,
             outClip := clearMask 32 flags 2 (uAt 4 bits 0) n.outClip }
  | .memory =>
    { n with corrected := clearDetail flags 0 n.corrected, uncorrectable := clearDetail flags 1 n.uncorrectable,
             dropped := clearDetail flags 2 n.dropped }
  | .inst =>
    { n with released := clearMask 24 flags 0 (uAt 3 bits 0) n.released,
             stolen := clearMask 24 flags 1 (uAt 3 bits 3) n.stolen,
             startFailed := clearMask 24 flags 2 (uAt 3 bits 6) n.startFailed,
             admitted := clearMask 24 flags 3 (uAt 3 bits 9) n.admitted,
             clipped := clearMask 24 flags 4 (uAt 3 bits 12) n.clipped,
             limit := clearMask 24 flags 5 (uAt 3 bits 15) n.limit }
  | .cue => { n with applied := clearDetail flags 0 n.applied }
  | .tempo => { n with tapTempo := clearDetail flags 0 n.tapTempo }
  | .link => { n with overrun := clearDetail flags 0 n.overrun, badFrame := clearDetail flags 1 n.badFrame }

/-- The clear that a NOTICE_CLEAR makes (R200). -/
def Notices.clear (es : List ClearEntry) (n : Notices) : Notices :=
  Group.all.foldl (fun n g => n.clearGroup g (clearUnion g es).1 (clearUnion g es).2) n

end Sys2Proof.Machine
end

