-- ==== Sys2Proof/Machine/Ops.lean ====
section
/-! DEFINITION. The named operations over the state: the instance table, the delay memory, the part's record of RUN,
and the placing of replies. -/

namespace Sys2Proof.Machine

/-! ### Instance table (R69) -/

/-- The context of an instance. -/
def State.inst (s : State) (i : InstNo) : Inst :=
  s.instances[i.val]

/-- Replaces the context of an instance. -/
def State.setInst (i : InstNo) (x : Inst) (s : State) : State :=
  { s with instances := s.instances.set i.val x i.isLt }

/-- Changes the context of an instance. -/
def State.modInst (i : InstNo) (g : Inst → Inst) (s : State) : State :=
  s.setInst i (g (s.inst i))

/-- The states in which an instance holds pages (R7). -/
def InstState.holdsPages : InstState → Bool
  | .running | .held | .spilling | .cutting => true
  | .empty | .ready | .waiting => false

/-- Every instance number, 0 upward. -/
def allInsts : List InstNo :=
  List.finRange 24

/-- Pages an instance holds in a pool: the lengths of its lines resolved to it (R21, R92). -/
def Inst.pagesIn (x : Inst) (p : Pool) : Nat :=
  match x.running with
  | some r => ((r.lines.filter fun l => l.pool = p).map fun l => l.pages.length).sum
  | none => 0

/-- The cost of an instance, 0 while it holds no pages (R15). -/
def Inst.cost (x : Inst) : Nat :=
  match x.running with
  | some r => r.cost
  | none => 0

/-! ### The part in RUN -/

/-- Whether the part is in RUN (R191). -/
def State.inRun (s : State) : Bool :=
  s.run.isSome

/-- The sample rate whose limits the monitor uses: that of 48,000 Hz in SETUP (R174). -/
def State.clockRate (s : State) : SampleRate :=
  match s.run with
  | some r => r.rate
  | none => .r48

/-- The budget count: B minus the budget in use (R16, R96). -/
def Run.leftover (r : Run) : Nat :=
  r.rate.budget - r.budgetInUse

/-! ### Delay memory -/

/-- The word listed at an address. -/
def cellGet {α : Type} : List (Nat × α) → Nat → Option α
  | [], _ => none
  | (a, v) :: rest, k => if a = k then some v else cellGet rest k

/-- Lists a word at an address, keeping the addresses strictly rising. -/
def cellPut {α : Type} (k : Nat) (v : α) : List (Nat × α) → List (Nat × α)
  | [] => [(k, v)]
  | (a, w) :: rest =>
    if k < a then (k, v) :: (a, w) :: rest
    else if k = a then (k, v) :: rest
    else (a, w) :: cellPut k v rest

/-- Whether the addresses of a list of cells rise strictly. -/
def cellsRise {α : Type} : List (Nat × α) → Bool
  | [] => true
  | [_] => true
  | (a, _) :: (b, w) :: rest => decide (a < b) && cellsRise ((b, w) :: rest)

/-- The canonical form of both delay memories: addresses strictly rising. An unlisted word is one not written since
power-up and has no value of its own, so no entry can equal it (logs 6 and 20). -/
def Memory.wf (s : State) : Bool :=
  cellsRise s.near && cellsRise s.dram

/-- The NEAR word at an address (R2); a free value where nothing was written since power-up. -/
def State.nearWord (s : State) (a : Nat) : BitVec 24 :=
  match cellGet s.near a with
  | some v => v
  | none => Config.nearPowerUp s.powerUps a

/-- The DRAM word at an address (R3); a free value where nothing was written since power-up. -/
def State.dramWord (s : State) (a : Nat) : DramWord :=
  match cellGet s.dram a with
  | some v => v
  | none => { sample := Config.dramPowerUpSample s.powerUps a, code := Config.dramPowerUpCode s.powerUps a }

/-- The code bits assigned to each sample bit, as a mask: the twenty sets of three in ascending order for bits 0 to 19, the
four sets of five for bits 20 to 23 (R149). Bit j of a mask stands for code bit j. -/
def codeSets : List (BitVec 6) :=
  [ 0b000111, 0b001011, 0b010011, 0b100011, 0b001101, 0b010101, 0b100101, 0b011001, 0b101001, 0b110001,
    0b001110, 0b010110, 0b100110, 0b011010, 0b101010, 0b110010, 0b011100, 0b101100, 0b110100, 0b111000,
    0b011111, 0b101111, 0b110111, 0b111011 ]

/-- The mask of sample bit `i` (R149). -/
def codeSet (i : Nat) : BitVec 6 :=
  codeSets.getD i 0

/-- The check code of a sample: code bit j is the exclusive OR of the sample bits whose set holds j (R149). -/
def checkCode (x : BitVec 24) : BitVec 6 :=
  (List.range 24).foldl (fun c i => if x.getLsbD i then c ^^^ codeSet i else c) 0

/-- A word as every write to the FAR pool leaves it: the sample with its fresh code (R149). -/
def validWord (v : Int) : DramWord :=
  { sample := BitVec.ofInt 24 v, code := checkCode (BitVec.ofInt 24 v) }

/-- What the memory service reports of a FAR read (R150). -/
inductive ReadOutcome where
  | clean (v : Int)
  | corrected (v : Int)
  | uncorrectable
  deriving DecidableEq, Repr

/-- The syndrome of a word read (R150). -/
def syndrome (w : DramWord) : BitVec 6 :=
  w.code ^^^ checkCode w.sample

/-- The outcome of a checked FAR read (R150). -/
def checkWord (w : DramWord) : ReadOutcome :=
  let y := syndrome w
  if y = 0 then .clean w.sample.toInt
  else if (List.range 6).any (fun j => y == BitVec.ofNat 6 (2 ^ j)) then .corrected w.sample.toInt
  else
    match (List.range 24).find? (fun i => y == codeSet i) with
    | some i => .corrected (w.sample ^^^ BitVec.ofNat 24 (2 ^ i)).toInt
    | none => .uncorrectable

/-- A NEAR word written (R2). -/
def State.writeNear (a : Nat) (v : Int) (s : State) : State :=
  { s with near := cellPut a (BitVec.ofInt 24 v) s.near }

/-- A DRAM word written whole, sample and fresh code together (R149). -/
def State.writeDram (a : Nat) (v : Int) (s : State) : State :=
  { s with dram := cellPut a (validWord v) s.dram }

/-- Removes the queued write-back for an address; those behind it keep their order (R155). -/
def State.cancelWriteBack (a : Nat) (s : State) : State :=
  { s with corrections := s.corrections.filter fun e => e.addr != a }

/-- A word of a line written: a FAR write also removes the queued write-back for its address (R155, R164). -/
def State.writeWord (p : Pool) (a : Nat) (v : Int) (s : State) : State :=
  match p with
  | .near => s.writeNear a v
  | .far => (s.cancelWriteBack a).writeDram a v

/-- Bits the external DRAM has inverted in one word; a word not written since power-up is the device's own in any case. -/
def State.upset (u : Upset) (s : State) : State :=
  match cellGet s.dram u.addr with
  | some w => { s with dram := cellPut u.addr { sample := w.sample ^^^ u.sample, code := w.code ^^^ u.code } s.dram }
  | none => s

/-- The bits the external DRAM has inverted before an event reads it (log 5). -/
def State.upsets (us : List Upset) (s : State) : State :=
  us.foldl (fun s u => s.upset u) s

/-- The position `k` samples behind `w` on a circle of `len` samples (R12). -/
def posBack (w k len : Nat) : Nat :=
  (((w : Int) - (k : Int)) % (len : Int)).toNat

/-- The length in samples of a line: its pages times 2048 (R11). -/
def LineRun.len (l : LineRun) : Nat :=
  l.pages.length * pageWords

/-- The physical word of a logical position, through a page list (R11). -/
def translate (pages : List Nat) (p : Nat) : Nat :=
  pages.getD (p / pageWords) 0 * pageWords + p % pageWords

/-- How many pages a pool has (R2, R3). -/
def Run.poolPages (r : Run) : Pool → Nat
  | .near => 32
  | .far => r.farSize.pages

/-- Whether every word the part may reach exists: page lists, queued write-backs and the size of the pools (R2, R3). -/
def State.wordsExist (s : State) : Bool :=
  match s.run with
  | none => true
  | some r =>
    (allInsts.all fun i =>
      match (s.inst i).running with
      | some x => x.lines.all fun l => !l.pages.isEmpty && l.pages.all fun q => decide (q < r.poolPages l.pool)
      | none => true)
    && s.corrections.all (fun e => decide (e.addr < r.farSize.pages * pageWords))

/-! ### Error record and correction queue (R154, R156, R157) -/

/-- A count that stays at 65,535 (R156). -/
def satCount (n : Nat) : Nat :=
  min (n + 1) 65535

/-- The location of a DRAM address, with the owner its page has at this moment (R156). -/
def State.location (s : State) (a : Nat) : Location :=
  { page := a / pageWords, offset := a % pageWords,
    owner :=
      match s.run with
      | some r => r.farOwner.getD (a / pageWords) none
      | none => none }

/-- A CORRECTED word checked: counted, located and raised (R156, R157). -/
def State.countCorrected (a : Nat) (s : State) : State :=
  State.raise (.corrected (s.location a))
    { s with errors := { s.errors with corrected := satCount s.errors.corrected,
                                       lastCorrected := some (s.location a) } }

/-- An UNCORRECTABLE word checked: counted, the first one located, and raised (R156, R157). -/
def State.countUncorrectable (a : Nat) (s : State) : State :=
  State.raise (.uncorrectable (s.location a))
    { s with errors := { s.errors with uncorrectable := satCount s.errors.uncorrectable,
                                       firstUncorr :=
                                         match s.errors.firstUncorr with
                                         | some l => some l
                                         | none => some (s.location a) } }

/-- How many write-backs the correction queue holds (R154). -/
def correctionCap : Nat :=
  8

/-- A write-back offered to the correction queue: already queued, appended, or dropped (R154, R157). -/
def State.offer (a : Nat) (v : Int) (s : State) : State :=
  if s.corrections.any (fun e => e.addr == a) then s
  else if s.corrections.length < correctionCap then { s with corrections := s.corrections ++ [⟨a, v⟩] }
  else State.raise (.dropped a) { s with errors := { s.errors with dropped := satCount s.errors.dropped } }

/-! ### Outbox (R186, R187) -/

/-- How many places the outbox has (R186). -/
def outboxPlaces : Nat :=
  4

/-- How many frames the inbox holds (R185). -/
def inboxPlaces : Nat :=
  2

/-- Places a reply in a place reserved for it (R186): the place holds the reply, at the end of the send order. -/
def State.place (r : Reply) (s : State) : State :=
  { s with link := { s.link with reserved := s.link.reserved - 1, sendOrder := s.link.sendOrder ++ [r] } }

/-- Answers the request of a frame with a status and a body (R187, R189). -/
def State.answer (f : Frame) (st : Status) (body : List Byte) (s : State) : State :=
  s.place { tag := f.tag, kind := replyKind f.kind, status := st, body := body }

/-- The bytes of a reply frame: SYNC, LEN, TAG, KIND, status and body (R187). -/
def Reply.bytes (r : Reply) : List Byte :=
  0xA9 :: (u2 (3 + r.body.length) ++ [r.tag, r.kind] ++ u1 r.status.code ++ r.body)

/-- RDY is high while the inbox holds fewer than 2 frames, and low while the RESET pin is asserted (R185). -/
def State.rdy (s : State) : Bool :=
  !s.resetPin && decide (s.link.inbox.length < inboxPlaces)

/-- ATN is active while a reply is not wholly sent or a pending flag of an enabled group of priority 1 or more stands
(R188). -/
def State.atnActive (s : State) : Bool :=
  !s.resetPin && (!s.link.sendOrder.isEmpty || s.notices.holdsAtn)

/-- The level of the ATN pin, true for high (R188). -/
def State.atnLevel (s : State) : Bool :=
  match s.link.polarity with
  | .activeLow => !s.atnActive
  | .activeHigh => s.atnActive

/-- The byte that the next byte position sends on LDO: the next byte of the head reply, or 0x00 (R187, R201). -/
def State.nextLdo (s : State) : Byte :=
  match s.link.sendOrder with
  | r :: _ => r.bytes.getD s.link.headSent 0
  | [] => 0

/-! ### Taking a request (R189) -/

/-- The oldest frame of the inbox with the state after it is removed and a place is reserved for it; none where the inbox
is empty, the outbox has no free place or the RESET pin is asserted (R189, R201). -/
def State.takeHead (s : State) : Option (Frame × State) :=
  if s.resetPin then none
  else
    match s.link.inbox with
    | [] => none
    | f :: rest =>
      if s.link.sendOrder.length + s.link.reserved < outboxPlaces then
        some (f, { s with link := { s.link with inbox := rest, reserved := s.link.reserved + 1 } })
      else none

/-- The refusal of the length and part state checks, none where both pass (R189). -/
def State.precheck (k : Kind) (f : Frame) (s : State) : Option Status :=
  if k.lengthOk f.body then
    match s.run with
    | none => if k = .softReset then some .badState else if k.servedInSetup then none else some .notReady
    | some _ => if k = .setup then some .badState else none
  else some .badLength

/-- The request-taken event of a row: where the oldest frame is of the row, it is taken, checked and handed to its owner
(R189). Where it is not, or nothing can be taken, the event is not due and nothing changes (log 1). -/
def serve (k : Kind) (mine : Frame → Bool) (owner : Frame → State → State) (s : State) : State :=
  match s.takeHead with
  | none => s
  | some (f, s1) =>
    if Kind.ofByte f.kind = some k ∧ mine f = true then
      match s1.precheck k f with
      | some st => s1.answer f st []
      | none => owner f s1
    else s

/-- The request-taken event of a kind that has one row. -/
def serveKind (k : Kind) (owner : Frame → State → State) (s : State) : State :=
  serve k (fun _ => true) owner s

/-- The outcome type of a step of this machine. -/
abbrev Out := Host.Outcome State Fault Refusal

end Sys2Proof.Machine
end

