-- ==== Sys2Proof/Machine/Pool.lean ====
section
/-! DEFINITION. The page pool: grants, returns, cost and the building of the pools (chapter 01). -/

namespace Sys2Proof.Machine

/-- Writes an owner entry for each of some pages (R5). -/
def setOwners (ps : List Nat) (o : Option Owner) (t : List (Option Owner)) : List (Option Owner) :=
  ps.foldl (fun t p => t.set p o) t

/-- Grants a line its pages: as many as its length from the head of the free list of its pool, in list order, with their
owner entries; W and F start at 0 (R8, R27). -/
def grantLine (i : InstNo) (j : Nat) (pool : Pool) (length : Nat) (r : Run) : LineRun × Run :=
  match pool with
  | .near =>
    let ps := r.nearFree.take length
    ({ w := 0, f := 0, pool := .near, pages := ps },
     { r with nearFree := r.nearFree.drop length, nearOwner := setOwners ps (some ⟨i, j⟩) r.nearOwner })
  | .far =>
    let ps := r.farFree.take length
    ({ w := 0, f := 0, pool := .far, pages := ps },
     { r with farFree := r.farFree.drop length, farOwner := setOwners ps (some ⟨i, j⟩) r.farOwner })

/-- Grants the lines of an instance in line order from line `j` upward (R8). -/
def grantLines (i : InstNo) : Nat → List (Pool × Nat) → Run → List LineRun × Run
  | _, [], r => ([], r)
  | j, (pool, length) :: rest, r =>
    let g := grantLine i j pool length r
    let gs := grantLines i (j + 1) rest g.2
    (g.1 :: gs.1, gs.2)

/-- Returns a line's pages to the tail of its pool's free list, in page-list order, and frees their entries (R9). -/
def returnLine (l : LineRun) (r : Run) : Run :=
  match l.pool with
  | .near => { r with nearFree := r.nearFree ++ l.pages, nearOwner := setOwners l.pages none r.nearOwner }
  | .far => { r with farFree := r.farFree ++ l.pages, farOwner := setOwners l.pages none r.farOwner }

/-- Returns the pages of all of an instance's lines, in line order (R9). -/
def returnLines (ls : List LineRun) (r : Run) : Run :=
  ls.foldl (fun r l => returnLine l r) r

/-- The FAR slots that line `j` of a program reserves when it is resolved FAR: 1 for its write and 2 for each tap that
names it (R14). -/
def farLineCost (p : Program) (j : Nat) : Nat :=
  1 + 2 * p.taps.countP fun t => t.line = j

/-- The pools as SETUP and SOFT_RESET build them: free lists ascending, every entry FREE, no budget in use (R20, R23). -/
def Run.build (rate : SampleRate) (size : FarSize) (pol : Polarity) : Run :=
  { rate := rate, farSize := size, polarity := pol, nearFree := List.range 32, farFree := List.range size.pages,
    nearOwner := List.replicate 32 none, farOwner := List.replicate size.pages none, budgetInUse := 0 }

/-! ### Sizing check (R18) -/

/-- Marker A, the sample 0x5A5A5A (R18). -/
def markerA : Int := (0x5A5A5A : BitVec 24).toInt
/-- Marker B, the sample 0xA5A5A5 (R18). -/
def markerB : Int := (0xA5A5A5 : BitVec 24).toInt

/-- Offset 0 of page size − 1 (R18). -/
def markerBAddr (size : FarSize) : Nat :=
  (size.pages - 1) * pageWords

/-- The state after the four accesses of the sizing check: the markers are written, and what the device then makes of them
is what is read back (R18). -/
def State.sized (size : FarSize) (us : List Upset) (s : State) : State :=
  ((s.writeDram 0 markerA).writeDram (markerBAddr size) markerB).upsets us

/-- Whether both words read back match the words written, all 30 bits (R18). -/
def State.sizingPasses (size : FarSize) (s : State) : Bool :=
  s.dramWord 0 == validWord markerA && s.dramWord (markerBAddr size) == validWord markerB

/-! ### POOL_STATUS (R21) -/

/-- The body of a POOL_STATUS reply: a free-list head is all ones where the list is empty (R21, R202). -/
def poolStatusBody (r : Run) (s : State) : List Byte :=
  u2 r.farSize.pages ++ u2 r.farFree.length ++ u2 (r.farFree.head?.getD 0xFFFF)
    ++ u1 r.nearFree.length ++ u1 (r.nearFree.head?.getD 0xFF)
    ++ u2 r.rate.budget ++ u2 r.budgetInUse ++ u2 r.leftover
    ++ allInsts.flatMap fun i =>
        u2 ((s.inst i).pagesIn .far) ++ u1 ((s.inst i).pagesIn .near) ++ u1 (s.inst i).cost

/-- POOL_STATUS is answered with the pools as they stand and changes none of them (R21). -/
def ownPoolStatus (f : Frame) (s : State) : State :=
  match s.run with
  | some r => s.answer f .ok (poolStatusBody r s)
  | none => s.answer f .notReady []

/-- POOL_STATUS taken (R21, R189). -/
def execPoolStatus (s : State) : Out :=
  .next (serveKind .poolStatus ownPoolStatus s)

end Sys2Proof.Machine
end

