-- ==== Sys2Proof/Machine/Delay.lean ====
section
/-! DEFINITION. The tempo unit and the delay-time stage: targets, glide, LFOs, modulation and the clamp (chapter 03). -/

namespace Sys2Proof.Machine

/-! ### Delay targets (R57, R58) -/

/-- The largest delay target (R58). -/
def maxTarget : Nat :=
  67108352

/-- The tempo target of a tap: round(Fs × 32000 × ticks / T), limited (R58). -/
def tempoTarget (rate : SampleRate) (tempo ticks : Nat) : Nat :=
  min (roundDiv (rate.hz * 32000 * ticks) tempo) maxTarget

/-- The delay target of a tap (R57). -/
def delayTarget (rate : SampleRate) (tempo : Nat) (t : TapProg) : Nat :=
  match t.source with
  | .fixed => t.fixed
  | .tempo => tempoTarget rate tempo t.ticks

/-! ### Glide (R59) -/

/-- The glide step of a frame: with glide 0 the delay jumps (R59). -/
def glideStep (glide value target : Nat) : Nat :=
  if glide = 0 then target else moveNat glide value target

/-! ### LFOs (R61 to R64) -/

/-- The increment of an LFO, with 4,294,967,296 = 2^32 (R62). -/
def lfoIncrement (rate : SampleRate) (milliHz : Nat) : Nat :=
  roundDiv (milliHz * 4294967296) (1000 * rate.hz)

/-- An LFO as an admission sets it: phase from the start phase, increment from the rate (R61). -/
def lfoStart (rate : SampleRate) (l : LfoProg) : LfoRun :=
  { phase := l.phase * 65536, inc := lfoIncrement rate l.rate }

/-- The triangle of q (R63). -/
def triangle (q : Nat) : Int :=
  if q < 32768 then 2 * (q : Int) - 32768 else 98303 - 2 * (q : Int)

/-- The smooth shape of a triangle value, with 3,221,225,472 = 3 × 2^30 and 2,147,483,648 = 2^31 (R64). -/
def smooth (t : Int) : Int :=
  clampInt (-32768) 32767 (t * (3221225472 - t * t) / 2147483648)

/-- The value of an LFO from its phase as it stands (R63, R64). -/
def lfoValue (shape : Shape) (phase : Nat) : Int :=
  match shape with
  | .triangle => triangle (phase / 65536)
  | .smooth => smooth (triangle (phase / 65536))

/-- The phase advanced by the increment, modulo 2^32 (R63). -/
def LfoRun.advance (l : LfoRun) : LfoRun :=
  { l with phase := (l.phase + l.inc) % 4294967296 }

/-! ### Modulation and the clamp (R66, R67) -/

/-- The modulation offset of a tap, given the two LFO values of the frame (R66). -/
def modOffset (t : TapProg) (v0 v1 : Int) : Int :=
  match t.lfo with
  | .none => 0
  | .lfo0 => (t.depth : Int) * v0 / 32768
  | .lfo1 => (t.depth : Int) * v1 / 32768

/-- The delay D of a tap on a line of `len` samples (R67). -/
def tapDelay (glide : Nat) (offset : Int) (len : Nat) : Nat :=
  (clampInt 256 (((len : Int) - 2) * 256) ((glide : Int) + offset)).toNat

/-! ### The tempo unit (R49 to R56) -/

/-- T within 3000 … 30000 (R50, R55). -/
def clampTempo (t : Nat) : Nat :=
  min 30000 (max 3000 t)

/-- TEMPO_SET stores the tempo, clamped, in SETUP and in RUN (R50). -/
def ownTempoSet (f : Frame) (s : State) : State :=
  let v := uAt 2 f.body 0
  State.answer f (if clampTempo v = v then .ok else .clamped) (u2 (clampTempo v))
    { s with tempo := { s.tempo with tempo := clampTempo v } }

/-- The body of a TEMPO_GET reply (R51, chapter 11). -/
def tempoGetBody (t : Tempo) : List Byte :=
  u2 t.tempo ++ boolByte t.tapMode ++ u1 t.intervals.length
    ++ ((List.range 4).flatMap fun k => u4 (t.intervals.getD k 0))
    ++ boolByte t.lastTap.isSome ++ u4 (t.lastTap.getD 0)

/-- TEMPO_GET returns the tempo unit's state and changes none of it (R51). -/
def ownTempoGet (f : Frame) (s : State) : State :=
  s.answer f .ok (tempoGetBody s.tempo)

/-- The tap mode set: a change clears the interval list and the last tap (R52). -/
def Tempo.setMode (on : Bool) (t : Tempo) : Tempo :=
  if t.tapMode = on then t else { t with tapMode := on, intervals := [], lastTap := none }

/-- TAP_MODE (R52). -/
def ownTapMode (f : Frame) (s : State) : State :=
  match u1At f.body 0 with
  | 0 => State.answer f .ok (u1 0) { s with tempo := s.tempo.setMode false }
  | 1 => State.answer f .ok (u1 1) { s with tempo := s.tempo.setMode true }
  | _ => s.answer f .badArg []

/-- The age of the last tap at a frame start in RUN (R53). -/
def Tempo.tick (rate : SampleRate) (t : Tempo) : Tempo :=
  { t with lastTap := t.lastTap.map fun a => min (a + 1) (2 * rate.hz + 1) }

/-- Whether an interval departs from the mean of a non-empty list by more than a quarter of that mean (R55 step 1). -/
def deviates (list : List Nat) (i : Nat) : Bool :=
  decide (0 < list.length) &&
    decide (((i : Int) * (list.length : Int) - (list.sum : Int)).natAbs * 4 > list.sum)

/-- The interval list after an in-range interval (R55 steps 1 and 2). -/
def takeInterval (list : List Nat) (i : Nat) : List Nat :=
  let kept := if deviates list i then [] else list
  (if kept.length = 4 then kept.drop 1 else kept) ++ [i]

/-- The tempo of an interval list (R55 step 3). -/
def tempoOf (rate : SampleRate) (list : List Nat) : Nat :=
  clampTempo (roundDiv (6000 * rate.hz * list.length) list.sum)

/-- A TAP edge that becomes the last tap and starts a new sequence (R54). -/
def Tempo.newSequence (t : Tempo) : Tempo :=
  { t with intervals := [], lastTap := some 0 }

/-- A TAP edge that is an in-range interval (R55). -/
def Tempo.interval (rate : SampleRate) (i : Nat) (t : Tempo) : Tempo :=
  { t with tempo := tempoOf rate (takeInterval t.intervals i), intervals := takeInterval t.intervals i,
           lastTap := some 0 }

/-- A TAP edge in RUN with the tap mode ON, tested in the order of R54. -/
def State.tapEdge (rate : SampleRate) (s : State) : State :=
  match s.tempo.lastTap with
  | none => { s with tempo := { s.tempo with lastTap := some 0 } }
  | some i =>
    if i < rate.hz / 25 then s
    else if i < rate.hz / 5 ∨ 2 * rate.hz < i then { s with tempo := s.tempo.newSequence }
    else State.raise (.tapTempo (s.tempo.interval rate i).tempo) { s with tempo := s.tempo.interval rate i }

/-- TEMPO_SET taken (R50, R189). -/
def execTempoSet (s : State) : Out :=
  .next (serveKind .tempoSet ownTempoSet s)

/-- TEMPO_GET taken (R51, R189). -/
def execTempoGet (s : State) : Out :=
  .next (serveKind .tempoGet ownTempoGet s)

/-- TAP_MODE taken (R52, R189). -/
def execTapMode (s : State) : Out :=
  .next (serveKind .tapMode ownTapMode s)

/-- A falling edge on the TAP pin: ignored in SETUP, while RESET is asserted and while the mode is OFF (R52, R53); else
taken by R54. -/
def execTapEdge (s : State) : Out :=
  match s.run with
  | some r => if s.tempo.tapMode && !s.resetPin then .next (s.tapEdge r.rate) else .next s
  | none => .next s

end Sys2Proof.Machine
end

