-- ==== Sys2Proof/Machine/TapEngine.lean ====
section
/-! DEFINITION. The tap engine and the tail monitor: the processing of one instance in one frame (chapters 02 and 05), with
the memory service's part in its reads (chapter 08). -/

namespace Sys2Proof.Machine

/-! ### Working targets (R31) -/

/-- The working input gain target of a state (R31). -/
def inTarget (st : InstState) (p : Program) : Nat :=
  match st with
  | .running => p.inGain
  | .empty | .ready | .waiting | .held | .spilling | .cutting => 0

/-- The step of the input gain (R31). -/
def inStep (st : InstState) : Nat :=
  match st with
  | .spilling => 128
  | .empty | .ready | .waiting | .running | .held | .cutting => 512

/-- The working output gain target of a state (R31). -/
def outTarget (st : InstState) (p : Program) : Nat :=
  match st with
  | .cutting => 0
  | .empty | .ready | .waiting | .running | .held | .spilling => p.outGain

/-- Whether a tap is a hold tap of a HELD instance (R31). -/
def holds (st : InstState) (t : TapProg) : Bool :=
  st == .held && t.hold

/-- The working gain target of a tap (R31). -/
def tapGainTarget (st : InstState) (t : TapProg) : Int :=
  if holds st t then 32767 else t.gain

/-- The damp used for a tap (R31). -/
def tapDamp (st : InstState) (t : TapProg) : Nat :=
  if holds st t then 0 else t.damp

/-! ### Admission's running fields (R30, R33, R61, R109) -/

/-- A tap as an admission sets it (R30, R33, R57). -/
def tapStart (rate : SampleRate) (tempo : Nat) (t : TapProg) : TapRun :=
  { target := delayTarget rate tempo t, glide := delayTarget rate tempo t, gain := t.gain, heldRead := 0, damping := 0 }

/-- The running fields that an admission sets, with the granted lines and the cost (R77). -/
def runningStart (rate : SampleRate) (tempo : Nat) (p : Program) (lines : List LineRun) (cost : Nat) : Running :=
  { lines := lines, taps := p.taps.map (tapStart rate tempo), lfo0 := lfoStart rate p.lfo0, lfo1 := lfoStart rate p.lfo1,
    inGain := 0, outGain := p.outGain, cost := cost, windowProgress := 0, windowPeak := 0 }

/-! ### Reading a tap (R34 to R38, R152) -/

/-- What all taps of one instance share in one frame: its number, its working state, its lines and the LFO values. -/
structure FrameCtx where
  inst  : InstNo
  rate  : SampleRate
  tempo : Nat
  state : InstState
  glide : Nat
  lines : List LineRun
  v0    : Int
  v1    : Int
  deriving DecidableEq, Repr

/-- The line a tap reads. -/
def FrameCtx.lineOf (c : FrameCtx) (t : TapProg) : LineRun :=
  c.lines.getD t.line { w := 0, f := 0, pool := .near, pages := [] }

/-- One source sample, `k` samples behind W, of a line: 0 beyond the fill count, without a fetch; else the word, checked
when it is FAR. With the outcome comes the DRAM address that was checked (R35, R151). -/
def sourceSample (l : LineRun) (k : Nat) (s : State) : ReadOutcome × Option Nat :=
  if l.f < k then (.clean 0, none)
  else
    let a := translate l.pages (posBack l.w k l.len)
    match l.pool with
    | .near => (.clean (s.nearWord a).toInt, none)
    | .far => (checkWord (s.dramWord a), some a)

/-- Counts, locates and raises a checked word by its outcome (R156, R157). -/
def countRead (x : ReadOutcome × Option Nat) (s : State) : State :=
  match x.1, x.2 with
  | .corrected _, some a => s.countCorrected a
  | .uncorrectable, some a => s.countUncorrectable a
  | _, _ => s

/-- Offers a corrected word for write-back (R152, R154). -/
def offerRead (x : ReadOutcome × Option Nat) (s : State) : State :=
  match x.1, x.2 with
  | .corrected v, some a => s.offer a v
  | _, _ => s

/-- The sample a read gives, none where it is UNCORRECTABLE (R150). -/
def ReadOutcome.sample : ReadOutcome → Option Int
  | .clean v => some v
  | .corrected v => some v
  | .uncorrectable => none

/-- The interpolated read (R36). -/
def interpolate (s0 s1 : Int) (f : Nat) : Int :=
  (s0 * (256 - (f : Int)) + s1 * (f : Int) + 128) / 256

/-- The read of a tap at delay `d`: none where a source sample is UNCORRECTABLE (R34 to R37). -/
def tapRead (l : LineRun) (d : Nat) (s : State) : Option Int :=
  match (sourceSample l (d / 256) s).1.sample, (sourceSample l (d / 256 + 1) s).1.sample with
  | some s0, some s1 => some (interpolate s0 s1 (d % 256))
  | _, _ => none

/-- What the memory service does for one tap's pair of words: both are counted in order, and the corrected ones are offered
for write-back when neither is UNCORRECTABLE (R152). -/
def tapService (l : LineRun) (d : Nat) (s : State) : State :=
  let x0 := sourceSample l (d / 256) s
  let x1 := sourceSample l (d / 256 + 1) s
  let s1 := countRead x1 (countRead x0 s)
  match x0.1.sample, x1.1.sample with
  | some _, some _ => offerRead x1 (offerRead x0 s1)
  | _, _ => s1

/-- The one-pole low-pass (R38). -/
def dampStep (damp : Nat) (r prev : Int) : Int :=
  r + (damp : Int) * (prev - r) / 32768

/-- What a tap gives in a frame: its new running fields, its exact product, and its delay. -/
structure TapOut where
  run     : TapRun
  product : Int
  delay   : Nat
  deriving DecidableEq, Repr

/-- The delay D of a tap in a frame, after the frame's glide step (R57, R59, R66, R67). -/
def frameDelay (c : FrameCtx) (t : TapProg) (u : TapRun) : Nat :=
  tapDelay (glideStep c.glide u.glide (delayTarget c.rate c.tempo t)) (modOffset t c.v0 c.v1) (c.lineOf t).len

/-- One tap of one frame: slew, delay, read, damp and gain (R32, R34 to R39). -/
def tapFrame (c : FrameCtx) (t : TapProg) (u : TapRun) (s : State) : TapOut :=
  let d := frameDelay c t u
  let read := tapRead (c.lineOf t) d s
  let r := read.getD u.heldRead
  let y := dampStep (tapDamp c.state t) r u.damping
  let g := moveInt 512 u.gain (tapGainTarget c.state t)
  { run := { target := delayTarget c.rate c.tempo t,
             glide := glideStep c.glide u.glide (delayTarget c.rate c.tempo t), gain := g, heldRead := r, damping := y },
    product := y * g, delay := d }

/-- All taps of an instance in tap order, with the memory service's work between them (R156: taps in tap order). No tap's
read changes what another reads (R44). -/
def tapsFrame (c : FrameCtx) : List TapProg → List TapRun → State → List TapOut × State
  | t :: ts, u :: us, s =>
    let o := tapFrame c t u s
    let rest := tapsFrame c ts us (tapService (c.lineOf t) o.delay s)
    (o :: rest.1, rest.2)
  | _, _, s => ([], s)

/-! ### Mixing (R39 to R43) -/

/-- The sum of the products of the taps with a destination (R39, R41, R43). -/
def destSum (d : Dest) (ts : List TapProg) (os : List TapOut) : Int :=
  ((List.zip ts os).map fun x => if x.1.dest = d then x.2.product else 0).sum

/-- Output A or B from its sum, before the output gain (R41). -/
def mixOutput (sum : Int) : Int :=
  sat24 (round15 sum)

/-- The fed input of a line (R42). -/
def fedInput (f : Feed) (a b : Int) : Int :=
  match f with
  | .none => 0
  | .a => a
  | .b => b
  | .mid => (a + b) / 2

/-- The exact accumulator of a line's write value (R43). -/
def lineAcc (fed : Int) (inGain : Nat) (tapSum : Int) : Int :=
  fed * (inGain : Int) + tapSum

/-- The write accumulators of all lines, in line order (R43). -/
def lineAccs (p : Program) (os : List TapOut) (inGain : Nat) (a b : Int) : List Int :=
  p.lines.zipIdx.map fun x => lineAcc (fedInput x.1.feed a b) inGain (destSum (.line x.2) p.taps os)

/-- The sample of an instance's input (R42, R71). -/
def inputOf (inputs : Vector Int 32) (route : Option PortNo) : Int :=
  match route with
  | some p => inputs[p.val]
  | none => 0

/-- The write accumulators of an instance's lines from the frame's inputs and taps (R42, R43). -/
def Inst.accs (inputs : Vector Int 32) (p : Program) (os : List TapOut) (inGain : Nat) (x : Inst) : List Int :=
  lineAccs p os inGain (inputOf inputs x.routing.inA) (inputOf inputs x.routing.inB)

/-- Writes the lines of an instance at W, in line order (R28, R43). -/
def writeLines : List LineRun → List Int → State → State
  | l :: ls, acc :: accs, s =>
    writeLines ls accs (s.writeWord l.pool (translate l.pages l.w) (sat24 (round15 acc)))
  | _, _, s => s

/-- A line advanced: W moves on around the circle and F counts up to L (R45). -/
def LineRun.advance (l : LineRun) : LineRun :=
  { l with w := (l.w + 1) % l.len, f := min (l.f + 1) l.len }

/-! ### The tail monitor (R109 to R112) -/

/-- The level code of a window peak (R111). -/
def levelCode (peak : Nat) : Nat :=
  min 15 (bitlength peak - 8)

/-- The quiet count after a window of a level (R112 steps 1 and 2). -/
def quietAfter (floor level q0 : Nat) : Nat :=
  if level ≤ floor then q0 + 1 else if floor + 2 ≤ level then 0 else q0

/-- The spill decision at the window end of a SPILLING instance (R112). -/
def spillDecision (p : Program) (level : Nat) (x : Inst) : Inst :=
  let q := quietAfter p.tailFloor level x.quietCount
  let n := x.spillWindows + 1
  { x with quietCount := q, spillWindows := n,
           decision := if p.quiet ≤ x.quietCount ∨ p.quiet ≤ q then some .release
                       else if p.spillLimit ≤ n then some .limit else x.decision }

/-- The window end of an instance: its level, and in SPILLING the spill decision; the next window begins (R110, R111). -/
def Inst.windowEnd (x : Inst) : Inst :=
  match x.running with
  | none => x
  | some r =>
    let level := levelCode r.windowPeak
    let y := { x with lastLevel := some level, running := some { r with windowProgress := 0, windowPeak := 0 } }
    match x.state, x.program with
    | .spilling, some p => spillDecision p level y
    | _, _ => y

/-- How many frames a window has (R110). -/
def windowFrames : Nat :=
  256

/-- The window end where the window is complete (R110). -/
def Inst.closeWindow (x : Inst) : Inst :=
  match x.running with
  | some r => if windowFrames ≤ r.windowProgress then x.windowEnd else x
  | none => x

/-! ### One instance in one frame -/

/-- Adds an output to the slot its route names (R26, R71, R171). -/
def addOutput (route : Option PortNo) (v : Int) (sums : Vector Int 32) : Vector Int 32 :=
  match route with
  | some p => sums.set p.val (sums[p.val] + v) p.isLt
  | none => sums

/-- The results of one instance's frame: the instance after it, its outputs, and the state after the memory service's work
and the line writes. -/
structure FrameOut where
  inst  : Inst
  outA  : Int
  outB  : Int
  state : State
  deriving DecidableEq, Repr

/-- The context of an instance's frame (R25: everything as it stands when the frame start is taken). -/
def frameCtx (rate : SampleRate) (i : InstNo) (x : Inst) (p : Program) (r : Running) (s : State) : FrameCtx :=
  { inst := i, rate := rate, tempo := s.tempo.tempo, state := x.state, glide := p.glide, lines := r.lines,
    v0 := lfoValue p.lfo0.shape r.lfo0.phase, v1 := lfoValue p.lfo1.shape r.lfo1.phase }

/-- The processing of one instance with its program and running fields: slew, delay, read, damp, gain, mix, advance, and the
tail monitor's window (R26, R32 to R45, R110). -/
def instFrame (rate : SampleRate) (i : InstNo) (x : Inst) (p : Program) (r : Running) (s : State) : FrameOut :=
  let inG := moveNat (inStep x.state) r.inGain (inTarget x.state p)
  let outG := moveNat 512 r.outGain (outTarget x.state p)
  let taps := tapsFrame (frameCtx rate i x p r s) p.taps r.taps s
  let sumA := destSum .outA p.taps taps.1
  let sumB := destSum .outB p.taps taps.1
  let outA := sat24 (round15 (mixOutput sumA * (outG : Int)))
  let outB := sat24 (round15 (mixOutput sumB * (outG : Int)))
  let accs := x.accs s.ports.inputs p taps.1 inG
  let clip := sat24Clamps (round15 sumA) || sat24Clamps (round15 (mixOutput sumA * (outG : Int)))
    || sat24Clamps (round15 sumB) || sat24Clamps (round15 (mixOutput sumB * (outG : Int)))
    || accs.any fun a => sat24Clamps (round15 a)
  let s1 := writeLines r.lines accs taps.2
  let r1 := { r with lines := r.lines.map LineRun.advance, taps := taps.1.map TapOut.run, lfo0 := r.lfo0.advance,
                     lfo1 := r.lfo1.advance, inGain := inG, outGain := outG, windowProgress := r.windowProgress + 1,
                     windowPeak := max r.windowPeak (max outA.natAbs outB.natAbs) }
  { inst := ({ x with running := some r1, clip := clip,
                      releaseDue := x.releaseDue || (x.state == .cutting && outG == 0) } : Inst).closeWindow,
    outA := outA, outB := outB, state := if clip then s1.raise (.clipped i) else s1 }

/-- One instance of a frame start: processed if it holds pages (R10, R24), its outputs added to the slots its routes name
(R26). -/
def processInst (rate : SampleRate) (i : InstNo) (acc : Vector Int 32 × State) : Vector Int 32 × State :=
  let x := acc.2.inst i
  match x.program, x.running with
  | some p, some r =>
    if x.state.holdsPages then
      let o := instFrame rate i x p r acc.2
      (addOutput x.routing.outB o.outB (addOutput x.routing.outA o.outA acc.1), o.state.setInst i o.inst)
    else acc
  | _, _ => acc

/-- The order in which a frame start processes the instances: the environment's, then ascending; each once (R24, log 7). -/
def frameOrder (order : List InstNo) : List InstNo :=
  (order ++ allInsts).eraseDups

/-- Every instance of a frame start, in its order, with the exact sum of each output slot (R24, R171). -/
def processAll (rate : SampleRate) (order : List InstNo) (s : State) : Vector Int 32 × State :=
  (frameOrder order).foldl (fun acc i => processInst rate i acc) (Vector.replicate 32 0, s)

/-! ### A frame cut off (R48) -/

/-- How many line writes the processing of an instance makes (R28). -/
def Inst.writeCount (x : Inst) : Nat :=
  match x.program, x.running with
  | some _, some r => if x.state.holdsPages then r.lines.length else 0
  | _, _ => 0

/-- The state after the first `n` line writes of an instance's processing (R28, R48); of it only the memories matter. -/
def cutInst (rate : SampleRate) (n : Nat) (i : InstNo) (s : State) : State :=
  let x := s.inst i
  match x.program, x.running with
  | some p, some r =>
    if x.state.holdsPages then
      let taps := tapsFrame (frameCtx rate i x p r s) p.taps r.taps s
      let inG := moveNat (inStep x.state) r.inGain (inTarget x.state p)
      writeLines (r.lines.take n) (x.accs s.ports.inputs p taps.1 inG) s
    else s
  | _, _ => s

/-- The state after the first `n` line writes of a frame's processing, in the frame's order of instances (R48, log 23). -/
def cutFrame (rate : SampleRate) : Nat → List InstNo → State → State
  | _, [], s => s
  | n, i :: rest, s =>
    if (s.inst i).writeCount ≤ n then
      cutFrame rate (n - (s.inst i).writeCount) rest (processInst rate i (Vector.replicate 32 0, s)).2
    else cutInst rate n i s

/-- WINDOW_END of an instance: its window end, where its window is complete. The frame processing that completes a window
ends it itself (R110), so between events no window stands complete (log 12). -/
def execWindowEnd (i : InstNo) (s : State) : Out :=
  .next (s.setInst i (s.inst i).closeWindow)

end Sys2Proof.Machine
end

