-- ==== Sys2Proof/Machine/Admission.lean ====
section
/-! DEFINITION. The admission unit: counts, fit test, admission, head service, steals, cuts and releases (chapter 05). -/

namespace Sys2Proof.Machine

/-! ### Counts (R96) -/

/-- A set of counts: FAR pages, NEAR pages and budget (R96). -/
structure Counts where
  far    : Nat
  near   : Nat
  budget : Nat
  deriving DecidableEq, Repr

/-- The free counts (R96); none of anything in SETUP. -/
def State.freeCounts (s : State) : Counts :=
  match s.run with
  | some r => { far := r.farFree.length, near := r.nearFree.length, budget := r.leftover }
  | none => { far := 0, near := 0, budget := 0 }

/-- Counts with an instance's holdings and cost added (R96, R103). -/
def Counts.plus (c : Counts) (x : Inst) : Counts :=
  { far := c.far + x.pagesIn .far, near := c.near + x.pagesIn .near, budget := c.budget + x.cost }

/-- Counts with the holdings of every instance in one of some states added (R96). -/
def State.countsWith (s : State) (sts : List InstState) (c : Counts) : Counts :=
  allInsts.foldl (fun c i => if (s.inst i).state ∈ sts then c.plus (s.inst i) else c) c

/-- The prospective counts: the free counts with every CUTTING and SPILLING holding (R96). -/
def State.prospectiveCounts (s : State) : Counts :=
  s.countsWith [.cutting, .spilling] s.freeCounts

/-- The free counts with every CUTTING holding (R103). -/
def State.enlargedCounts (s : State) : Counts :=
  s.countsWith [.cutting] s.freeCounts

/-! ### The fit test (R97) -/

/-- The running demand of the walk, as counts (R97). -/
def resolve (c : Counts) (l : LineProg) (nearDemand : Nat) : Pool :=
  match l.placement with
  | .near => .near
  | .far => .far
  | .any => if l.length ≤ 4 ∧ nearDemand + l.length ≤ c.near then .near else .far

/-- A line added to the demand, resolved to a pool (R97). -/
def demandLine (p : Program) (j : Nat) (l : LineProg) (pool : Pool) (d : Counts) : Counts :=
  match pool with
  | .near => { d with near := d.near + l.length }
  | .far => { d with far := d.far + l.length, budget := d.budget + farLineCost p j }

/-- The walk of the fit test over lines from line `j` upward: the resolution and the demand (R97). -/
def fitWalk (p : Program) (c : Counts) : Nat → List LineProg → Counts → List Pool × Counts
  | _, [], d => ([], d)
  | j, l :: rest, d =>
    let pool := resolve c l d.near
    let w := fitWalk p c (j + 1) rest (demandLine p j l pool d)
    (pool :: w.1, w.2)

/-- The whole walk of a program against a set of counts (R97). -/
def fitTest (p : Program) (c : Counts) : List Pool × Counts :=
  fitWalk p c 0 p.lines { far := 0, near := 0, budget := 0 }

/-- The verdict of the fit test (R97). -/
def fits (p : Program) (c : Counts) : Bool :=
  let d := (fitTest p c).2
  decide (d.far ≤ c.far ∧ d.near ≤ c.near ∧ d.budget ≤ c.budget)

/-- Whether an instance's program fits a set of counts; an instance without a program does not. -/
def State.instFits (s : State) (i : InstNo) (c : Counts) : Bool :=
  match (s.inst i).program with
  | some p => fits p c
  | none => false

/-! ### Admission (R8, R16, R77) -/

/-- The context of an admitted instance (R77, R109). -/
def Inst.admitted (rate : SampleRate) (tempo : Nat) (p : Program) (lines : List LineRun) (cost : Nat) (x : Inst) : Inst :=
  { x with state := .running, running := some (runningStart rate tempo p lines cost), clip := false, lastLevel := none,
           quietCount := 0, spillWindows := 0, decision := none, releaseDue := false }

/-- The admission of an instance against the free counts: the grant, the cost and the running fields, in one act
(R8, R16, R77, R98). -/
def State.admission (i : InstNo) (s : State) : State :=
  match s.run, (s.inst i).program with
  | some r, some p =>
    let t := fitTest p s.freeCounts
    let g := grantLines i 0 (t.1.zip (p.lines.map LineProg.length)) r
    { s with run := some { g.2 with budgetInUse := g.2.budgetInUse + t.2.budget } }.modInst i
      (Inst.admitted r.rate s.tempo.tempo p g.1 t.2.budget)
  | _, _ => s

/-! ### Line access ended by its instance leaving HELD (R166) -/

/-- The body of the reply of a line access with the words served so far (chapter 11). -/
def LineAccess.body (a : LineAccess) : List Byte :=
  match a.op with
  | .read => u2 a.served ++ u2 a.bad ++ a.got.flatMap s3
  | .write _ => u2 a.served

/-- The reply of a line access (R165, R166). -/
def LineAccess.reply (st : Status) (a : LineAccess) : Reply :=
  { tag := a.tag,
    kind :=
      match a.op with
      | .read => replyKind kindLineRead
      | .write _ => replyKind kindLineWrite,
    status := st, body := a.body }

/-- Ends the line access in flight with a status, in its reserved place (R165, R166). -/
def State.endAccess (st : Status) (s : State) : State :=
  match s.access with
  | some a => State.place (a.reply st) { s with access := none }
  | none => s

/-- Aborts the line access in flight where it is on this instance (R166). -/
def State.abortAccessOf (i : InstNo) (s : State) : State :=
  match s.access with
  | some a => if a.inst = i then s.endAccess .aborted else s
  | none => s

/-! ### Moves between states (R79, R80, R104, R113) -/

/-- A move to SPILLING with reason USER: the tail of the spill list, a new window, counts at 0 (R79, R108, R109). -/
def State.toSpilling (i : InstNo) (s : State) : State :=
  State.modInst i
    (fun x => { x with state := .spilling, stopReason := .user, quietCount := 0, spillWindows := 0, decision := none,
                       running := x.running.map fun r => { r with windowProgress := 0, windowPeak := 0 } })
    { s with spill := s.spill ++ [i] }

/-- A move to CUTTING with its reason: off the spill list, a decision not yet acted on void (R80, R104, R108, R113). -/
def State.toCutting (i : InstNo) (why : StopReason) (s : State) : State :=
  State.modInst i (fun x => { x with state := .cutting, stopReason := why, decision := none, releaseDue := false })
    { s with spill := s.spill.erase i }

/-- A steal: the head of the spill list cut with reason STOLEN and its notice bit (R104). -/
def State.steal (i : InstNo) (s : State) : State :=
  (s.toCutting i .stolen).raise (.stolen i)

/-! ### Head service (R101 to R105) -/

/-- Steals spill-list heads one at a time until the instance fits the enlarged counts or the spill list is empty, with
whether it then fits (R103). The first argument bounds the steals: the length of the spill list. -/
def stealUntil (i : InstNo) : Nat → Counts → State → Bool × State
  | 0, c, s => (s.instFits i c, s)
  | n + 1, c, s =>
    if s.instFits i c then (true, s)
    else
      match s.spill with
      | [] => (false, s)
      | j :: _ => stealUntil i n (c.plus (s.inst j)) (s.steal j)

/-- The head admitted from the queue, with its notice bit (R102). -/
def State.admitHead (i : InstNo) (s : State) : State :=
  State.raise (.admitted i) (State.admission i { s with queue := s.queue.erase i })

/-- The head given up: READY again, with its notice bit (R105). -/
def State.giveUp (i : InstNo) (s : State) : State :=
  State.raise (.startFailed i)
    (State.modInst i (fun x => { x with state := .ready }) { s with queue := s.queue.erase i })

/-- Head service: admits, waits or gives up heads in turn (R101 to R105). The first argument bounds the heads: the length of
the queue. -/
def serveHeads : Nat → State → State
  | 0, s => s
  | n + 1, s =>
    match s.queue with
    | [] => s
    | i :: _ =>
      if s.instFits i s.freeCounts then serveHeads n (s.admitHead i)
      else
        let t := stealUntil i s.spill.length s.enlargedCounts s
        if t.1 then t.2 else serveHeads n (t.2.giveUp i)

/-- Head service within the present event (R101). -/
def State.headService (s : State) : State :=
  serveHeads s.queue.length s

/-! ### Starting a READY instance (R99) -/

/-- START of a READY instance: at once, refused NO_ROOM, or queued with head service (R99). -/
def State.startReady (i : InstNo) (s : State) : Status × State :=
  if s.queue.isEmpty && s.instFits i s.freeCounts then (.ok, s.admission i)
  else if s.queue.isEmpty && !s.instFits i s.prospectiveCounts then (.noRoom, s)
  else
    (.ok, State.headService
      (State.modInst i (fun x => { x with state := .waiting }) { s with queue := s.queue ++ [i] }))

/-! ### Release (R84, R106) -/

/-- The context of a released instance: READY, running fields discarded (R84, R109). -/
def Inst.released (x : Inst) : Inst :=
  { x with state := .ready, running := none, decision := none, releaseDue := false }

/-- The pool after an instance's pages and cost have returned (R9, R16). -/
def Run.takeBack (x : Inst) (r : Run) : Run :=
  match x.running with
  | some y => { returnLines y.lines r with budgetInUse := r.budgetInUse - y.cost }
  | none => r

/-- A release, with the head service it runs (R84, R106). -/
def State.releaseInst (i : InstNo) (s : State) : State :=
  State.headService
    (State.raise (.released i)
      (State.modInst i Inst.released
        { s with run := s.run.map (Run.takeBack (s.inst i)), spill := s.spill.erase i }))

/-- The spill-limit cut of the tail monitor (R113). -/
def State.limitCut (i : InstNo) (s : State) : State :=
  (s.toCutting i .limit).raise (.limit i)

/-- TAIL_DECISION: the event that acts on a window-end decision. It is due where a decision stands; it acts if the instance
is still SPILLING and is void otherwise (R113). -/
def State.tailDecision (i : InstNo) (s : State) : State :=
  match (s.inst i).decision with
  | none => s
  | some d =>
    let s1 := s.modInst i fun x => { x with decision := none }
    if (s.inst i).state = .spilling then
      match d with
      | .release => s1.releaseInst i
      | .limit => s1.limitCut i
    else s1

/-- RELEASE: the release of a completed cut. It is due where the tap engine has reported the completion; it acts if the
instance is still CUTTING and is void otherwise (R26, R106). -/
def State.cutRelease (i : InstNo) (s : State) : State :=
  if (s.inst i).releaseDue then
    let s1 := s.modInst i fun x => { x with releaseDue := false }
    if (s.inst i).state = .cutting then s1.releaseInst i else s1
  else s

/-- TAIL_DECISION (R113). -/
def execTailDecision (i : InstNo) (s : State) : Out :=
  .next (s.tailDecision i)

/-- RELEASE (R106). -/
def execRelease (i : InstNo) (s : State) : Out :=
  .next (s.cutRelease i)

end Sys2Proof.Machine
end

