-- ==== Sys2Proof/Machine/Instances.lean ====
section
/-! DEFINITION. The instance requests and their outcome table (chapter 04). Each `do…` operation carries one outcome out and
is used by the request and by the cue entry alike (R126); it answers with the status and the state after it. -/

namespace Sys2Proof.Machine

/-! ### Loading and unloading (R75, R76) -/

/-- The context after a LOAD of a record (R75). -/
def Inst.loaded (slot : SlotNo) (p : Program) (x : Inst) : Inst :=
  { x with state := .ready, slot := some slot, program := some p }

/-- LOAD of a library slot (R74, R75). -/
def State.doLoad (i : InstNo) (slot : SlotNo) (s : State) : Status × State :=
  match (s.inst i).state with
  | .empty | .ready =>
    match s.library[slot.val].record with
    | some r => (.ok, s.modInst i (Inst.loaded slot r.program))
    | none => (.empty, s)
  | .waiting | .running | .held | .spilling | .cutting => (.busy, s)

/-- UNLOAD: EMPTY, keeping only the routing (R74, R76). -/
def State.doUnload (i : InstNo) (s : State) : Status × State :=
  match (s.inst i).state with
  | .empty => (.ok, s)
  | .ready => (.ok, s.modInst i fun x => Inst.emptyWith x.routing)
  | .waiting | .running | .held | .spilling | .cutting => (.busy, s)

/-! ### Starting and stopping (R74, R77 to R81) -/

/-- A resume: off the spill list and RUNNING, with its running fields; the counts of the spill at 0 (R78, R109). -/
def State.resume (i : InstNo) (s : State) : State :=
  State.modInst i (fun x => { x with state := .running, quietCount := 0, spillWindows := 0, decision := none })
    { s with spill := s.spill.erase i }

/-- START (R74, R77, R78, R99). -/
def State.doStart (i : InstNo) (s : State) : Status × State :=
  match (s.inst i).state with
  | .empty | .held => (.badState, s)
  | .ready => s.startReady i
  | .waiting | .running => (.ok, s)
  | .spilling => (.ok, s.resume i)
  | .cutting => (.busy, s)

/-- A WAITING instance leaves the admission queue; if it was the head, head service runs (R81, R100). -/
def State.dequeue (i : InstNo) (s : State) : State :=
  let s1 := State.modInst i (fun x => { x with state := .ready }) { s with queue := s.queue.erase i }
  if s.queue.head? = some i then s1.headService else s1

/-- STOP in SPILL mode (R74, R79, R81, R166). -/
def State.doStopSpill (i : InstNo) (s : State) : Status × State :=
  match (s.inst i).state with
  | .empty | .ready | .spilling | .cutting => (.ok, s)
  | .waiting => (.ok, s.dequeue i)
  | .running => (.ok, s.toSpilling i)
  | .held => (.ok, (s.abortAccessOf i).toSpilling i)

/-- STOP in CUT mode (R74, R80, R81, R166). -/
def State.doStopCut (i : InstNo) (s : State) : Status × State :=
  match (s.inst i).state with
  | .empty | .ready | .cutting => (.ok, s)
  | .waiting => (.ok, s.dequeue i)
  | .running | .spilling => (.ok, s.toCutting i .user)
  | .held => (.ok, (s.abortAccessOf i).toCutting i .user)

/-- HOLD (R74, R82). -/
def State.doHold (i : InstNo) (s : State) : Status × State :=
  match (s.inst i).state with
  | .running => (.ok, s.modInst i fun x => { x with state := .held })
  | .held => (.ok, s)
  | .empty | .ready | .waiting | .spilling | .cutting => (.badState, s)

/-- UNHOLD (R74, R83, R166). -/
def State.doUnhold (i : InstNo) (s : State) : Status × State :=
  match (s.inst i).state with
  | .held => (.ok, (s.abortAccessOf i).modInst i fun x => { x with state := .running })
  | .running => (.ok, s)
  | .empty | .ready | .waiting | .spilling | .cutting => (.badState, s)

/-! ### Parameters (R87 to R91) -/

/-- Changes one tap of a program. -/
def Program.modTap (k : Nat) (g : TapProg → TapProg) (p : Program) : Program :=
  { p with taps := p.taps.modify k g }

/-- Changes one LFO of a program. -/
def Program.modLfo (k : Nat) (g : LfoProg → LfoProg) (p : Program) : Program :=
  if k = 0 then { p with lfo0 := g p.lfo0 } else { p with lfo1 := g p.lfo1 }

/-- The source of a valid code (R87). -/
def sourceOfValue (v : Int) : Source := if v = 0 then .fixed else .tempo
/-- The lfo selection of a valid code (R87). -/
def lfoSelOfValue (v : Int) : LfoSel := if v = 0 then .none else if v = 1 then .lfo0 else .lfo1
/-- The shape of a valid code (R87). -/
def shapeOfValue (v : Int) : Shape := if v = 0 then .triangle else .smooth

/-- Stores a program value (R87, R88); routes are no part of the program. -/
def Program.store (d : Ident) (k : Nat) (v : Int) (p : Program) : Program :=
  match d with
  | .inGain => { p with inGain := v.toNat }
  | .outGain => { p with outGain := v.toNat }
  | .glide => { p with glide := v.toNat }
  | .tapGain => p.modTap k fun t => { t with gain := v }
  | .tapSource => p.modTap k fun t => { t with source := sourceOfValue v }
  | .tapFixed => p.modTap k fun t => { t with fixed := v.toNat }
  | .tapTicks => p.modTap k fun t => { t with ticks := v.toNat }
  | .tapLfo => p.modTap k fun t => { t with lfo := lfoSelOfValue v }
  | .tapDepth => p.modTap k fun t => { t with depth := v.toNat }
  | .tapDamp => p.modTap k fun t => { t with damp := v.toNat }
  | .lfoRate => p.modLfo k fun l => { l with rate := v.toNat }
  | .lfoShape => p.modLfo k fun l => { l with shape := shapeOfValue v }
  | .lfoPhase => p.modLfo k fun l => { l with phase := v.toNat }
  | .tailFloor => { p with tailFloor := v.toNat }
  | .tailQuiet => { p with quiet := v.toNat }
  | .spillLimit => { p with spillLimit := v.toNat }
  | .routeInA | .routeInB | .routeOutA | .routeOutB => p

/-- Stores a route (R71, R87). -/
def Routing.store (d : Ident) (v : Int) (r : Routing) : Routing :=
  match d with
  | .routeInA => { r with inA := routeOf v }
  | .routeInB => { r with inB := routeOf v }
  | .routeOutA => { r with outA := routeOf v }
  | .routeOutB => { r with outB := routeOf v }
  | .inGain | .outGain | .glide | .tapGain | .tapSource | .tapFixed | .tapTicks | .tapLfo | .tapDepth | .tapDamp
  | .lfoRate | .lfoShape | .lfoPhase | .tailFloor | .tailQuiet | .spillLimit => r

/-- A SET of LFO_RATE recomputes the increment of an instance that holds pages; the phase runs on (R62, R89). -/
def Running.store (rate : SampleRate) (d : Ident) (k : Nat) (v : Int) (r : Running) : Running :=
  match d with
  | .lfoRate =>
    if k = 0 then { r with lfo0 := { r.lfo0 with inc := lfoIncrement rate v.toNat } }
    else { r with lfo1 := { r.lfo1 with inc := lfoIncrement rate v.toNat } }
  | .inGain | .outGain | .glide | .tapGain | .tapSource | .tapFixed | .tapTicks | .tapLfo | .tapDepth | .tapDamp
  | .lfoShape | .lfoPhase | .tailFloor | .tailQuiet | .spillLimit | .routeInA | .routeInB | .routeOutA | .routeOutB => r

/-- Stores a value within its range in a context (R87 to R89). -/
def Inst.store (rate : SampleRate) (d : Ident) (k : Nat) (v : Int) (x : Inst) : Inst :=
  { x with program := x.program.map (Program.store d k v), routing := x.routing.store d v,
           running := x.running.map (Running.store rate d k v) }

/-- A tap as GET finds it by its index. -/
def Program.tapAt (p : Program) (k : Nat) : TapProg :=
  p.taps.getD k { line := 0, source := .fixed, fixed := 0, ticks := 0, lfo := .none, depth := 0, gain := 0, damp := 0,
                  dest := .outA, hold := false }

/-- An LFO as GET finds it by its index. -/
def Program.lfoAt (p : Program) (k : Nat) : LfoProg :=
  if k = 0 then p.lfo0 else p.lfo1

/-- The stored value of an identifier (R91). -/
def storedValue (d : Ident) (k : Nat) (p : Program) (r : Routing) : Int :=
  match d with
  | .inGain => (p.inGain : Int)
  | .outGain => (p.outGain : Int)
  | .glide => (p.glide : Int)
  | .tapGain => (p.tapAt k).gain
  | .tapSource => ((p.tapAt k).source.code : Int)
  | .tapFixed => ((p.tapAt k).fixed : Int)
  | .tapTicks => ((p.tapAt k).ticks : Int)
  | .tapLfo => ((p.tapAt k).lfo.code : Int)
  | .tapDepth => ((p.tapAt k).depth : Int)
  | .tapDamp => ((p.tapAt k).damp : Int)
  | .lfoRate => ((p.lfoAt k).rate : Int)
  | .lfoShape => ((p.lfoAt k).shape.code : Int)
  | .lfoPhase => ((p.lfoAt k).phase : Int)
  | .tailFloor => (p.tailFloor : Int)
  | .tailQuiet => (p.quiet : Int)
  | .spillLimit => (p.spillLimit : Int)
  | .routeInA => routeValue r.inA
  | .routeInB => routeValue r.inB
  | .routeOutA => routeValue r.outA
  | .routeOutB => routeValue r.outB

/-- Whether a tap index lies within the tap count of a program (R73, fourth check; R87). -/
def Ident.inProgram (d : Ident) (k : Nat) (p : Program) : Bool :=
  !d.ofTap || decide (k < p.taps.length)

/-- The program that SET and GET reach: none in EMPTY (R74). -/
def Inst.settable (x : Inst) : Option Program :=
  if x.state = .empty then none else x.program

/-- SET from its third check onward: BAD_STATE in EMPTY, BAD_ARG beyond the taps, else clamped and stored (R73, R74, R88). -/
def State.doSet (i : InstNo) (d : Ident) (k : Nat) (v : Int) (s : State) : Status × State :=
  match (s.inst i).settable with
  | none => (.badState, s)
  | some p =>
    if d.inProgram k p then
      (if d.clamp v = v then .ok else .clamped, s.modInst i (Inst.store s.clockRate d k (d.clamp v)))
    else (.badArg, s)

/-! ### The requests (R73) -/

/-- The body of every instance reply: the instance number carried and the state, 0xFF for no such instance (R73, R203). -/
def instBody (b : Byte) (s : State) : List Byte :=
  match instOf b with
  | some i => [b] ++ u1 (s.inst i).state.code
  | none => [b] ++ u1 0xFF

/-- Answers an instance request with an outcome: the state it leaves, and its body after it (R73). -/
def answerInst (f : Frame) (o : Status × State) : State :=
  o.2.answer f o.1 (instBody (byteAt f.body 0) o.2)

/-- A request that names an instance and nothing else that can fail the second check (R73). -/
def ownInst (act : InstNo → State → Status × State) (f : Frame) (s : State) : State :=
  match instOf (byteAt f.body 0) with
  | some i => answerInst f (act i s)
  | none => answerInst f (.badArg, s)

/-- LOAD: the library slot is checked with the instance (R73). -/
def ownLoad (f : Frame) (s : State) : State :=
  match instOf (byteAt f.body 0), slotOf (byteAt f.body 1) with
  | some i, some k => answerInst f (s.doLoad i k)
  | _, _ => answerInst f (.badArg, s)

/-- STOP: the mode is checked with the instance (R73). -/
def ownStop (f : Frame) (s : State) : State :=
  match u1At f.body 1 with
  | 0 => ownInst State.doStopSpill f s
  | 1 => ownInst State.doStopCut f s
  | _ => answerInst f (.badArg, s)

/-- Whether a STOP frame names SPILL: the frames that STOP_CUT leaves to STOP_SPILL (log 2). -/
def stopsSpill (f : Frame) : Bool :=
  !(f.body.length == 2 && u1At f.body 1 == 1)

/-- Whether a STOP frame names CUT: the frames that STOP_SPILL leaves to STOP_CUT (log 2). -/
def stopsCut (f : Frame) : Bool :=
  !(f.body.length == 2 && u1At f.body 1 == 0)

/-- The value of a SET body (R87). -/
def setValueAt (body : List Byte) (k : Nat) : Int :=
  (BitVec.ofNat 32 (uAt 4 body k)).toInt

/-- The identifier and index of a SET or GET body, none where they fail the second check (R73, R87). -/
def identAt (body : List Byte) (k : Nat) : Option Ident :=
  match Ident.ofCode (byteAt body k) with
  | some d => if d.indexOk (byteAt body (k + 1)) then some d else none
  | none => none

/-- SET (R73, R87, R88): the reply carries the stored value with OK or CLAMPED. -/
def ownSet (f : Frame) (s : State) : State :=
  match instOf (byteAt f.body 0), identAt f.body 1 with
  | some i, some d =>
    if d.valueOk (setValueAt f.body 3) then
      let o := s.doSet i d (u1At f.body 2) (setValueAt f.body 3)
      if o.1 = .ok ∨ o.1 = .clamped then
        o.2.answer f o.1 (instBody (byteAt f.body 0) o.2 ++ s4 (d.clamp (setValueAt f.body 3)))
      else answerInst f o
    else answerInst f (.badArg, s)
  | _, _ => answerInst f (.badArg, s)

/-- GET (R73, R91): the stored value, and no change. -/
def ownGet (f : Frame) (s : State) : State :=
  match instOf (byteAt f.body 0), identAt f.body 1 with
  | some i, some d =>
    match (s.inst i).settable with
    | none => answerInst f (.badState, s)
    | some p =>
      if d.inProgram (u1At f.body 2) p then
        s.answer f .ok (instBody (byteAt f.body 0) s ++ s4 (storedValue d (u1At f.body 2) p (s.inst i).routing))
      else answerInst f (.badArg, s)
  | _, _ => answerInst f (.badArg, s)

/-! ### INSTANCE_STATUS (R92) -/

/-- The tap part of INSTANCE_STATUS: current gain and glide value of each tap, 0 while no pages are held (R92). -/
def statusTaps (x : Inst) : List Byte :=
  match x.running, x.program with
  | some r, _ => r.taps.flatMap fun t => s2 t.gain ++ u4 t.glide
  | none, some p => p.taps.flatMap fun _ => s2 0 ++ u4 0
  | none, none => []

/-- The tap count of INSTANCE_STATUS: as programmed, 0 in EMPTY (R92). -/
def statusTapCount (x : Inst) : Nat :=
  match x.program with
  | some p => p.taps.length
  | none => 0

/-- The current input and output gain, 0 while no pages are held (R92). -/
def currentGains (x : Inst) : Nat × Nat :=
  match x.running with
  | some r => (r.inGain, r.outGain)
  | none => (0, 0)

/-- The place of an instance in a list, where its state puts it there (R92). -/
def listPlace (on : Bool) (l : List InstNo) (i : InstNo) : Option Nat :=
  if on then l.idxOf? i else none

/-- The body of an INSTANCE_STATUS reply (R92, chapter 11). -/
def instStatusBody (i : InstNo) (s : State) : List Byte :=
  let x := s.inst i
  u1 i.val ++ u1 x.state.code ++ optByte (x.slot.map Fin.val)
    ++ (match x.program with
        | some p => p.name
        | none => List.replicate 16 0)
    ++ optByte (listPlace (x.state == .waiting) s.queue i) ++ optByte (listPlace (x.state == .spilling) s.spill i)
    ++ u2 (currentGains x).1 ++ u2 (currentGains x).2 ++ u1 x.cost ++ u2 (x.pagesIn .far) ++ u1 (x.pagesIn .near)
    ++ optByte x.lastLevel ++ u1 x.quietCount ++ u2 x.spillWindows ++ boolByte x.clip ++ u1 x.stopReason.code
    ++ u1 (statusTapCount x) ++ statusTaps x

/-- INSTANCE_STATUS is answered in every state and changes nothing (R92). -/
def ownInstStatus (f : Frame) (s : State) : State :=
  match instOf (byteAt f.body 0) with
  | some i => s.answer f .ok (instStatusBody i s)
  | none => answerInst f (.badArg, s)

/-! ### The rows -/

/-- LOAD taken (R75, R189). -/
def execLoad (s : State) : Out :=
  .next (serveKind .load ownLoad s)

/-- UNLOAD taken (R76, R189). -/
def execUnload (s : State) : Out :=
  .next (serveKind .unload (ownInst State.doUnload) s)

/-- START taken (R99, R189). -/
def execStart (s : State) : Out :=
  .next (serveKind .start (ownInst State.doStart) s)

/-- STOP in SPILL mode taken (R79, R189). -/
def execStopSpill (s : State) : Out :=
  .next (serve .stop stopsSpill ownStop s)

/-- STOP in CUT mode taken (R80, R189). -/
def execStopCut (s : State) : Out :=
  .next (serve .stop stopsCut ownStop s)

/-- HOLD taken (R82, R189). -/
def execHold (s : State) : Out :=
  .next (serveKind .hold (ownInst State.doHold) s)

/-- UNHOLD taken (R83, R189). -/
def execUnhold (s : State) : Out :=
  .next (serveKind .unhold (ownInst State.doUnhold) s)

/-- SET taken (R88, R189). -/
def execSet (s : State) : Out :=
  .next (serveKind .set ownSet s)

/-- GET taken (R91, R189). -/
def execGet (s : State) : Out :=
  .next (serveKind .get ownGet s)

/-- INSTANCE_STATUS taken (R92, R189). -/
def execInstanceStatus (s : State) : Out :=
  .next (serveKind .instanceStatus ownInstStatus s)

end Sys2Proof.Machine
end

