-- ==== Sys2Proof/Machine/Cues.lean ====
section
/-! DEFINITION. The cue unit (chapter 06). -/

namespace Sys2Proof.Machine

/-- How many entries the cue list holds (R118). -/
def cueCap : Nat :=
  32

/-- Whether the fields that an entry's action uses lie in their domains (R119). -/
def CueEntry.domainOk (e : CueEntry) : Bool :=
  match e.action with
  | .load => (slotOf e.slot).isSome
  | .set =>
    match Ident.ofCode e.ident with
    | some d => d.indexOk e.index && d.valueOk e.value.toInt
    | none => false
  | .start | .stopSpill | .stopCut | .hold | .unhold => true

/-- The entry a CUE_ADD body carries, none where a field lies outside its domain (R119, chapter 11). -/
def cueEntryOf (body : List Byte) : Option CueEntry :=
  match CueAction.ofCode (byteAt body 0), instOf (byteAt body 1) with
  | some a, some i =>
    let e : CueEntry := { action := a, inst := i, slot := byteAt body 2, ident := byteAt body 3, index := byteAt body 4,
                          value := BitVec.ofNat 32 (uAt 4 body 5) }
    if e.domainOk then some e else none
  | _, _ => none

/-- The 9 bytes of an entry as CUE_LIST returns it (R121, chapter 11). -/
def CueEntry.bytes (e : CueEntry) : List Byte :=
  u1 e.action.code ++ u1 e.inst.val ++ [e.slot, e.ident, e.index] ++ u4 e.value.toNat

/-- CUE_ADD (R119). -/
def ownCueAdd (f : Frame) (s : State) : State :=
  match cueEntryOf f.body with
  | none => s.answer f .badArg []
  | some e =>
    if s.cue.list.length < cueCap then
      State.answer f .ok (u1 s.cue.list.length ++ u1 (s.cue.list.length + 1))
        { s with cue := { s.cue with list := s.cue.list ++ [e] } }
    else s.answer f .full []

/-- CUE_CLEAR (R120). -/
def ownCueClear (f : Frame) (s : State) : State :=
  State.answer f .ok (u1 s.cue.list.length) { s with cue := { s.cue with list := [] } }

/-- CUE_LIST (R121). -/
def ownCueList (f : Frame) (s : State) : State :=
  s.answer f .ok (boolByte s.cue.pendingFlag ++ u1 s.cue.fired.length ++ u1 s.cue.list.length
    ++ s.cue.list.flatMap CueEntry.bytes)

/-- The cue list fired: it moves whole into the fired set and the pending flag is set (R122, R123). -/
def Cue.fire (o : GoOrigin) (c : Cue) : Cue :=
  { list := [], fired := c.list, pendingFlag := true, origin := some o, due := false }

/-- GO: refused BUSY or EMPTY, or fired and in flight with the place reserved for it (R122). -/
def ownGo (f : Frame) (s : State) : State :=
  if s.cue.pendingFlag then s.answer f .busy []
  else if s.cue.list.isEmpty then s.answer f .empty []
  else { s with cue := s.cue.fire (.request f.tag) }

/-- A falling edge on the GO pin: fires, or is ignored (R123). -/
def State.goPin (s : State) : State :=
  if s.inRun && !s.resetPin && !s.cue.pendingFlag && !s.cue.list.isEmpty then { s with cue := s.cue.fire .pin } else s

/-! ### The application event (R125 to R129) -/

/-- One entry as its instance request would be, from the third check onward (R126). -/
def applyEntry (e : CueEntry) (s : State) : Status × State :=
  match e.action with
  | .load =>
    match slotOf e.slot with
    | some k => s.doLoad e.inst k
    | none => (.badArg, s)
  | .start => s.doStart e.inst
  | .stopSpill => s.doStopSpill e.inst
  | .stopCut => s.doStopCut e.inst
  | .hold => s.doHold e.inst
  | .unhold => s.doUnhold e.inst
  | .set =>
    match Ident.ofCode e.ident with
    | some d => s.doSet e.inst d e.index.toNat e.value.toInt
    | none => (.badArg, s)

/-- Whether an outcome counts as applied (R126, R127). -/
def Status.applies (st : Status) : Bool :=
  st == .ok || st == .clamped

/-- The counts with one more entry, of index `k` (R127, R129). -/
def CueCounts.count (ok : Bool) (k : Nat) (c : CueCounts) : CueCounts :=
  if ok then { c with applied := c.applied + 1 }
  else { c with skipped := c.skipped + 1, first := some (c.first.getD k) }

/-- The entries from index `k` applied in order: one that would be refused is skipped and changes nothing (R125 to R127). -/
def applyEntries : Nat → List CueEntry → CueCounts → State → CueCounts × State
  | _, [], c, s => (c, s)
  | k, e :: rest, c, s =>
    let o := applyEntry e s
    applyEntries (k + 1) rest (c.count o.1.applies k) (if o.1.applies then o.2 else s)

/-- The body of a GO reply: applied, skipped and first skipped index (chapter 11). -/
def CueCounts.bytes (c : CueCounts) : List Byte :=
  u1 c.applied ++ u1 c.skipped ++ optByte c.first

/-- Answers the GO in flight, where a request fired the cue, in its reserved place (R129, R132). -/
def State.answerGo (st : Status) (c : CueCounts) (s : State) : State :=
  match s.cue.origin with
  | some (.request tag) => s.place { tag := tag, kind := replyKind kindGo, status := st, body := c.bytes }
  | some .pin => s
  | none => s

/-- The application completed: the fired set emptied, the pending flag and the origin cleared, APPLIED set, and the GO
answered (R129). -/
def State.completeCue (c : CueCounts) (s : State) : State :=
  let s1 := s.answerGo .ok c
  State.raise (.applied c)
    { s1 with cue := { s1.cue with fired := [], pendingFlag := false, origin := none, due := false } }

/-- The counts before the first entry (R129). -/
def CueCounts.zero : CueCounts :=
  { applied := 0, skipped := 0, first := none }

/-- The application event, where the boundary has been taken (R125). Every entry reads the state as it stands when this event is taken (R126,
R130); no STORE or ERASE of a slot that a LOAD entry names changes that slot between the boundary and this event (R146, log 25). -/
def State.applyCue (s : State) : State :=
  if s.cue.due then
    let o := applyEntries 0 s.cue.fired CueCounts.zero s
    o.2.completeCue o.1
  else s

/-- CUE_ADD taken (R119, R189). -/
def execCueAdd (s : State) : Out :=
  .next (serveKind .cueAdd ownCueAdd s)

/-- CUE_CLEAR taken (R120, R189). -/
def execCueClear (s : State) : Out :=
  .next (serveKind .cueClear ownCueClear s)

/-- CUE_LIST taken (R121, R189). -/
def execCueList (s : State) : Out :=
  .next (serveKind .cueList ownCueList s)

/-- GO taken (R122, R189). -/
def execGo (s : State) : Out :=
  .next (serveKind .go ownGo s)

/-- GO pin edge (R123). -/
def execGoPin (s : State) : Out :=
  .next s.goPin

/-- The application event (R125). -/
def execCueApplication (s : State) : Out :=
  .next s.applyCue

end Sys2Proof.Machine
end

