-- ==== Sys2Proof/Machine/MemoryService.lean ====
section
/-! DEFINITION. The memory service: MEM_ERRORS, line access and the leftover slots (chapter 08). The check code, the error record
and the correction queue stand in Ops.lean, where the tap engine's reads use them too. -/

namespace Sys2Proof.Machine

/-! ### MEM_ERRORS (R158) -/

/-- A location behind its presence boolean, zero where absent (chapter 11). -/
def optLocation (l : Option Location) : List Byte :=
  boolByte l.isSome ++ locationDetail l

/-- The body of a MEM_ERRORS reply (R158, chapter 11). -/
def memErrorsBody (s : State) : List Byte :=
  u2 s.errors.corrected ++ optLocation s.errors.lastCorrected ++ u2 s.errors.uncorrectable
    ++ optLocation s.errors.firstUncorr ++ u2 s.errors.dropped ++ u1 s.corrections.length

/-- MEM_ERRORS: KEEP, or CLEAR after the reply's values are taken (R158). -/
def ownMemErrors (f : Frame) (s : State) : State :=
  match u1At f.body 0 with
  | 0 => s.answer f .ok (memErrorsBody s)
  | 1 => State.answer f .ok (memErrorsBody s) { s with errors := ErrorRecord.reset }
  | _ => s.answer f .badArg []

/-! ### Line access accepted (R161, R162) -/

/-- The largest count of a line access (R161). -/
def accessCap : Nat :=
  256

/-- The fixed positions of an access, word 0 first (R162). -/
def accessPositions (l : LineRun) (offset count : Nat) : List Nat :=
  (List.range count).map fun i => posBack l.w (offset + i) l.len

/-- The samples a LINE_WRITE carries, word 0 first (R161, chapter 11). -/
def writeSamples (body : List Byte) (count : Nat) : List Int :=
  (List.range count).map fun i => s3At body (8 + 3 * i)

/-- A LINE_READ or LINE_WRITE is refused, or accepted as the line access in flight with its place reserved (R161). -/
def acceptAccess (op : List Byte → Nat → AccessOp) (f : Frame) (s : State) : State :=
  let line := u1At f.body 1
  let offset := uAt 4 f.body 2
  let count := uAt 2 f.body 6
  match instOf (byteAt f.body 0) with
  | none => s.answer f .badArg []
  | some i =>
    if 7 < line ∨ offset = 0 ∨ count = 0 ∨ accessCap < count then s.answer f .badArg []
    else if (s.inst i).state ≠ .held then s.answer f .badState []
    else
      match (s.inst i).running.bind fun r => r.lines[line]? with
      | none => s.answer f .badArg []
      | some l =>
        if min l.f (l.len - 1) < offset + count - 1 then s.answer f .badArg []
        else if s.access.isSome then s.answer f .busy []
        else
          { s with access := some { tag := f.tag, op := op f.body count, inst := i, line := line, pool := l.pool,
                                    positions := accessPositions l offset count, served := 0, got := [], bad := 0,
                                    frameSeen := false } }

/-- LINE_READ (R161). -/
def ownLineRead (f : Frame) (s : State) : State :=
  acceptAccess (fun _ _ => .read) f s

/-- LINE_WRITE (R161). -/
def ownLineWrite (f : Frame) (s : State) : State :=
  acceptAccess (fun body count => .write (writeSamples body count)) f s

/-! ### Words served (R163 to R165) -/

/-- The physical word of the next word of an access, through the page list of its line (R162). -/
def State.accessAddr (a : LineAccess) (s : State) : Nat :=
  match (s.inst a.inst).running.bind fun r => r.lines[a.line]? with
  | some l => translate l.pages (a.positions.getD a.served 0)
  | none => 0

/-- An access with one more word done: for a LINE_READ, its sample and whether it was uncorrectable (R164). -/
def LineAccess.done (v : Option Int) (uncorr : Bool) (a : LineAccess) : LineAccess :=
  { a with served := a.served + 1, bad := if uncorr then a.bad + 1 else a.bad,
           got :=
             match v with
             | some x => a.got ++ [x]
             | none => a.got }

/-- A NEAR word of an access served (R164). -/
def serveNearWord (a : LineAccess) (s : State) : LineAccess × State :=
  match a.op with
  | .read => (a.done (some (s.nearWord (s.accessAddr a)).toInt) false, s)
  | .write vs => (a.done none false, s.writeWord .near (s.accessAddr a) (vs.getD a.served 0))

/-- A FAR word of an access served: a read is checked, counted, and offered for write-back when corrected; an uncorrectable
one gives 0 (R164). -/
def serveFarWord (a : LineAccess) (s : State) : LineAccess × State :=
  let k := s.accessAddr a
  match a.op with
  | .read =>
    match checkWord (s.dramWord k) with
    | .clean v => (a.done (some v) false, s)
    | .corrected v => (a.done (some v) false, (s.countCorrected k).offer k v)
    | .uncorrectable => (a.done (some 0) true, s.countUncorrectable k)
  | .write vs => (a.done none false, s.writeWord .far k (vs.getD a.served 0))

/-- Serves NEAR words in word order (R163). The first argument bounds the words. -/
def serveNearWords : Nat → LineAccess → State → LineAccess × State
  | 0, a, s => (a, s)
  | n + 1, a, s =>
    let t := serveNearWord a s
    serveNearWords n t.1 t.2

/-- An access after words were served: completed in its reserved place when the last is done, else still in flight (R165). -/
def State.keepAccess (a : LineAccess) (s : State) : State :=
  if a.positions.length ≤ a.served then State.endAccess .ok { s with access := some a }
  else { s with access := some a }

/-- All the NEAR words of an access whose first frame start after the acceptance has been taken (R163). -/
def State.serveNear (s : State) : State :=
  match s.access with
  | some a =>
    if a.pool = .near ∧ a.frameSeen = true then
      let t := serveNearWords (a.positions.length - a.served) a s
      t.2.keepAccess t.1
    else s
  | none => s

/-- One leftover slot: the oldest write-back, else the next FAR word of the access in flight, else idle (R159, R160). -/
def State.serveSlot (s : State) : State :=
  match s.corrections with
  | e :: rest => State.writeDram e.addr e.sample { s with corrections := rest }
  | [] =>
    match s.access with
    | some a =>
      if a.pool = .far then
        let t := serveFarWord a s
        t.2.keepAccess t.1
      else s
    | none => s

/-- Whether a slot finds work (R159). -/
def State.slotBusy (s : State) : Bool :=
  !s.corrections.isEmpty ||
    match s.access with
    | some a => a.pool == .far
    | none => false

/-- The leftover slots given out one at a time, in order; one that finds nothing stays idle, and so do those after it
(R159). -/
def serveSlots : Nat → State → State
  | 0, s => s
  | n + 1, s => if s.slotBusy then serveSlots n s.serveSlot else s

/-- The service event of a frame, where it is due, with the slot count counted at the frame's start (R159, R163), after the
bits the external DRAM has inverted. -/
def State.service (us : List Upset) (s : State) : State :=
  match s.serviceDue with
  | some n => serveSlots n (State.serveNear { s.upsets us with serviceDue := none })
  | none => s

/-- MEM_ERRORS taken (R158, R189). -/
def execMemErrors (s : State) : Out :=
  .next (serveKind .memErrors ownMemErrors s)

/-- LINE_READ taken (R161, R189). -/
def execLineRead (s : State) : Out :=
  .next (serveKind .lineRead ownLineRead s)

/-- LINE_WRITE taken (R161, R189). -/
def execLineWrite (s : State) : Out :=
  .next (serveKind .lineWrite ownLineWrite s)

/-- The service event of the frame (R159). -/
def execServiceEvent (us : List Upset) (s : State) : Out :=
  if s.wordsExist then .next (s.service us) else .fault .noSuchWord

end Sys2Proof.Machine
end

