-- ==== Sys2Proof/Machine/FrameClock.lean ====
section
/-! DEFINITION. The audio ports and the frame clock monitor: frame starts, edges, expiries and the internal frame timer
(chapter 09). -/

namespace Sys2Proof.Machine

/-! ### Lanes and slots (R169) -/

/-- Slot `k` of a lane frame, in ascending order from the frame sync, its most significant bit sent first (R169). -/
def laneSlot (x : LaneFrame) (k : Nat) : BitVec 32 :=
  x.extractLsb' (480 - 32 * k) 32

/-- The sample of a 32-bit input slot: its top 24 bits (R169). -/
def slotSample (x : BitVec 32) : Int :=
  (x.extractLsb' 8 24).toInt

/-- The samples of two input lane frames: AIN0 carries IN0 to IN15 and AIN1 carries IN16 to IN31 (R169). -/
def laneSamples (lanes : InputLanes) : Vector Int 32 :=
  Vector.ofFn fun k : PortNo => slotSample (laneSlot (if k.val < 16 then lanes.ain0 else lanes.ain1) (k.val % 16))

/-- The word sent in an output slot: the sample in the top 24 bits, the low 8 sent as zero (R169). -/
def slotWord (v : Int) : BitVec 32 :=
  BitVec.ofInt 24 v ++ (0 : BitVec 8)

/-- The lane frame that sends 16 samples from slot `first` on, in ascending slot order (R169). -/
def outLane (first : Nat) (samples : Vector Int 32) : LaneFrame :=
  (List.range 16).foldl
    (fun x k => x ||| (slotWord (samples.toList.getD (first + k) 0)).setWidth 512 <<< (480 - 32 * k)) 0

/-- The lane frame of AOUT0: OUT0 to OUT15 of the transmit set (R169, R171). -/
def State.aout0 (s : State) : LaneFrame :=
  outLane 0 s.ports.transmit

/-- The lane frame of AOUT1: OUT16 to OUT31 of the transmit set (R169, R171). -/
def State.aout1 (s : State) : LaneFrame :=
  outLane 16 s.ports.transmit

/-! ### The RESET pin -/

/-- RESET_PIN_ASSERT: as power-up, but the library and the delay memories keep what they hold; the pin stays asserted
(R22, R94, R116, R131, R148, R167, R181, R201). -/
def State.resetAssert (s : State) : State :=
  { State.reset with pending := s.pending, powerUps := s.powerUps, library := s.library, near := s.near, dram := s.dram,
                     resetPin := true }

/-! ### The frame start (R24, R48, R53, R124, R159, R170 to R172) -/

/-- Silent input slots (R170). -/
def silence : Vector Int 32 :=
  Vector.replicate 32 0

/-- The pending set of a frame from its exact slot sums (R171). -/
def pendingOf (sums : Vector Int 32) : Vector Int 32 :=
  sums.map sat24

/-- The slots whose sum was clamped, bit s for slot s (R172). -/
def clampMask (sums : Vector Int 32) : BitVec 32 :=
  (List.finRange 32).foldl (fun m k => if sat24Clamps sums[k.val] then m ||| BitVec.ofNat 32 (2 ^ k.val) else m) 0

/-- The pending set handed to the lanes at a frame start: sent with its clamped slots raised while LOCKED, discarded while FREE
(R171, R172). -/
def State.transmit (s : State) : State :=
  match s.monitor.lock with
  | .locked =>
    let s1 := { s with ports := { s.ports with transmit := s.ports.pending } }
    if s.ports.pendingClip = 0 then s1 else s1.raise (.outClip s.ports.pendingClip)
  | .free => { s with ports := { s.ports with transmit := silence } }

/-- The tap engine's work at a frame start in RUN, and the pending set it leaves (R24, R171). -/
def State.runFrame (rate : SampleRate) (order : List InstNo) (s : State) : State :=
  let t := processAll rate order s
  { t.2 with ports := { t.2.ports with pending := pendingOf t.1, pendingClip := clampMask t.1 } }

/-- What a frame start in RUN marks for the events that follow it: the slot count of its service event (R159), the first frame
of a NEAR line access (R163) and the boundary of a fired cue (R124). -/
def State.markFrame (r : Run) (s : State) : State :=
  { s with serviceDue := some r.leftover,
           access := s.access.map fun a => { a with frameSeen := true },
           cue := { s.cue with due := s.cue.pendingFlag } }

/-- A window-end decision that still stands when the frame start will complete the instance's next window is taken before it:
the decision event follows the processing in which its window ended (R113, log 8). -/
def State.overdueDecision (s : State) (i : InstNo) : State :=
  match (s.inst i).running with
  | some r => if windowFrames ≤ r.windowProgress + 1 then s.tailDecision i else s
  | none => s

/-- The events before this frame start that nothing has taken yet: decisions overdue, the service event and the application
event of the frame before (log 8). -/
def State.finishFrame (order : List InstNo) (s : State) : State :=
  (((frameOrder order).foldl State.overdueDecision s).service []).applyCue

/-- A frame start up to the tap engine's work: the pending set is handed over, the input samples are taken, and in RUN the tap age
grows and the events that follow the frame are marked (R53, R170, R171). -/
def State.openFrame (inputs : Vector Int 32) (env : FrameEnv) (s : State) : State :=
  let s0 := ((s.finishFrame env.order).upsets env.upsets).transmit
  let s1 := { s0 with ports := { s0.ports with inputs := inputs } }
  match s1.run with
  | none => s1
  | some r => State.markFrame r { s1 with tempo := s1.tempo.tick r.rate }

/-- A whole frame start with its input samples: in RUN every block that takes it does so; in SETUP nothing is processed and every slot
carries zero (R24, R53, R170, R171). -/
def State.wholeFrame (inputs : Vector Int 32) (env : FrameEnv) (s : State) : State :=
  let s1 := s.openFrame inputs env
  match s1.run with
  | none => { s1 with ports := { s1.ports with pending := silence, pendingClip := 0 } }
  | some r => s1.runFrame r.rate env.order

/-- A frame start during whose processing the RESET pin is asserted, `n` line writes after its beginning: the processing ends, the
memories keep the writes made, and the rest of the state is that of the reset (R48, log 23). -/
def State.cutFrameStart (inputs : Vector Int 32) (n : Nat) (env : FrameEnv) (s : State) : State :=
  let s1 := s.openFrame inputs env
  match s1.run with
  | none => s1.resetAssert
  | some r => (cutFrame r.rate n (frameOrder env.order) s1).resetAssert

/-- A frame start, whole or cut off by the RESET pin (R24, R48). -/
def State.frameStart (inputs : Vector Int 32) (env : FrameEnv) (s : State) : State :=
  match env.cut with
  | none => s.wholeFrame inputs env
  | some n => s.cutFrameStart inputs n env

/-- A frame start, or the fault of a state whose words do not exist (log 18). -/
def State.frame (inputs : Vector Int 32) (env : FrameEnv) (s : State) : Out :=
  if s.wordsExist then .next (s.frameStart inputs env) else .fault .noSuchWord

/-! ### Periods and counts (R174) -/

/-- Reference ticks pass: the time since the mark and since the last frame start grow together (log 3). -/
def Monitor.pass (d : Nat) (m : Monitor) : Monitor :=
  { m with sinceMark := m.sinceMark.map (· + d), sinceFrame := m.sinceFrame + d }

/-- A good period counted (R174). -/
def Monitor.countGood (m : Monitor) : Monitor :=
  { m with good := min (m.good + 1) 16, bad := 0 }

/-- A bad period counted (R174). -/
def Monitor.countBad (m : Monitor) : Monitor :=
  { m with bad := min (m.bad + 1) 4, good := 0 }

/-- The mark moved to the present moment (R174). -/
def Monitor.markNow (m : Monitor) : Monitor :=
  { m with sinceMark := some 0 }

/-- The present moment made the last frame start (R177). -/
def Monitor.frameNow (m : Monitor) : Monitor :=
  { m with sinceFrame := 0 }

/-- Whether a period is good under the limits of a rate (R174). -/
def goodPeriod (rate : SampleRate) (p : Nat) : Bool :=
  decide (rate.goodLow ≤ p ∧ p ≤ rate.goodHigh)

/-- A state with its monitor changed. -/
def State.modMonitor (g : Monitor → Monitor) (s : State) : State :=
  { s with monitor := g s.monitor }

/-- HOLDOVER: when the bad count has reached 4 while LOCKED, the monitor becomes FREE with both counts 0 and the flag is raised;
the mark is kept (R177). -/
def State.holdoverCheck (s : State) : State :=
  if s.monitor.lock = .locked ∧ s.monitor.bad = 4 then
    State.raise .holdover (s.modMonitor fun m => { m with lock := .free, good := 0, bad := 0 })
  else s

/-- LOCK_RESTORED: when the good count has reached 16 while FREE, the monitor becomes LOCKED with both counts 0 and the flag is
raised (R179). -/
def State.lockCheck (s : State) : State :=
  if s.monitor.lock = .free ∧ s.monitor.good = 16 then
    State.raise .lockRestored (s.modMonitor fun m => { m with lock := .locked, good := 0, bad := 0 })
  else s

/-! ### Edges, expiries and the timer (R175 to R180) -/

/-- The ticks left until a moment `limit` after one that lies `since` ago, 0 where it has passed (R180: "or at once"). -/
def ticksLeft (limit since : Nat) : Nat :=
  limit - since

/-- A frame sync edge taken at a moment `p` after the mark, while LOCKED (R175): a good one is a frame start and the mark; an
early or late one is bad, makes no frame start and does not move the mark. -/
def State.lockedEdge (p : Nat) (lanes : InputLanes) (env : FrameEnv) (s : State) : Out :=
  if goodPeriod s.clockRate p then
    State.frame (laneSamples lanes) env (s.modMonitor fun m => m.countGood.markNow.frameNow)
  else .next (State.holdoverCheck (s.modMonitor Monitor.countBad))

/-- A frame sync edge taken at a moment `p` after the mark, while FREE (R178, R179): it moves the mark and makes no frame
start. -/
def State.freeEdge (p : Nat) (s : State) : State :=
  State.lockCheck
    (s.modMonitor fun m => (if goodPeriod s.clockRate p then m.countGood else m.countBad).markNow)

/-- AFS_EDGE, `ticks` reference ticks after the last timed event (R174, R175, R178, R179). While RESET is asserted no edge is
taken (R181). -/
def execAfsEdge (ticks : Nat) (lanes : InputLanes) (env : FrameEnv) (s : State) : Out :=
  if s.resetPin then .next s
  else
    let s1 := s.modMonitor (Monitor.pass ticks)
    match s1.monitor.sinceMark with
    | none => .next (s1.modMonitor Monitor.markNow)
    | some p =>
      match s.monitor.lock with
      | .locked => s1.lockedEdge p lanes env
      | .free => .next (s1.freeEdge p)

/-- EDGE_WATCH_EXPIRY, at its moment after the mark, or at once where that has passed (R174, R176, R178, R180). The watch is armed
while the mark is present. While LOCKED the timer supplies the frame start, the first of holdover where the count reaches 4
(R177). -/
def execEdgeWatchExpiry (env : FrameEnv) (s : State) : Out :=
  if s.resetPin then .next s
  else
    match s.monitor.sinceMark with
    | none => .next s
    | some p =>
      let s1 := s.modMonitor fun m => ((m.pass (ticksLeft s.clockRate.watch p)).countBad).markNow
      match s.monitor.lock with
      | .locked => State.frame silence env (s1.holdoverCheck.modMonitor Monitor.frameNow)
      | .free => .next s1

/-- INTERNAL_FRAME_TIMER, one nominal period after the last frame start, or at once where that has passed; only while FREE, and
not while RESET is asserted (R178, R180, R181). -/
def execInternalFrameTimer (env : FrameEnv) (s : State) : Out :=
  if s.resetPin then .next s
  else
    match s.monitor.lock with
    | .locked => .next s
    | .free =>
      State.frame silence env
        (s.modMonitor fun m => (m.pass (ticksLeft s.clockRate.nominal m.sinceFrame)).frameNow)

/-- HOLDOVER. The edge or expiry that brings the count to 4 makes this move itself (R177), so between events it is never due
(log 12). -/
def execHoldover (s : State) : Out :=
  .next s.holdoverCheck

/-- LOCK_RESTORED. The edge that brings the count to 16 makes this move itself (R179), so between events it is never due
(log 12). -/
def execLockRestored (s : State) : Out :=
  .next s.lockCheck

end Sys2Proof.Machine
end

