-- ==== Sys2Proof/Machine/Library.lean ====
section
/-! DEFINITION. The preset library (chapter 07). -/

namespace Sys2Proof.Machine

/-- A library slot (R133). -/
def State.libSlot (s : State) (k : SlotNo) : LibSlot :=
  s.library[k.val]

/-- Changes one library slot (R136: at most the one slot named, whole). -/
def State.setLibSlot (k : SlotNo) (x : LibSlot) (s : State) : State :=
  { s with library := s.library.set k.val x k.isLt }

/-- The record a record part of 32 to 464 bytes becomes, or the field index of its first fault (R137 to R140). A record that
passes its checks spells a program (R204), so the last case, a faultless record without one, does not arise. -/
def checkRecord (r : List Byte) : Except Nat PresetRecord :=
  match recordFault r with
  | some k => .error k
  | none =>
    match programOf r with
    | some p => .ok { bytes := r, program := p }
    | none => .error 0

/-- STORE (R137). -/
def ownStore (f : Frame) (s : State) : State :=
  match slotOf (byteAt f.body 0) with
  | none => s.answer f .badArg [byteAt f.body 0]
  | some k =>
    if (s.libSlot k).guarded then s.answer f .protectedSlot [byteAt f.body 0]
    else
      match checkRecord (f.body.drop 1) with
      | .error n => s.answer f .badRecord ([byteAt f.body 0] ++ u2 n)
      | .ok r => State.answer f .ok [byteAt f.body 0] (s.setLibSlot k { s.libSlot k with record := some r })

/-- FETCH (R142). -/
def ownFetch (f : Frame) (s : State) : State :=
  match slotOf (byteAt f.body 0) with
  | none => s.answer f .badArg [byteAt f.body 0]
  | some k =>
    match (s.libSlot k).record with
    | some r => s.answer f .ok ([byteAt f.body 0] ++ r.bytes)
    | none => s.answer f .empty [byteAt f.body 0]

/-- ERASE (R143). -/
def ownErase (f : Frame) (s : State) : State :=
  match slotOf (byteAt f.body 0) with
  | none => s.answer f .badArg [byteAt f.body 0]
  | some k =>
    if (s.libSlot k).guarded then s.answer f .protectedSlot [byteAt f.body 0]
    else State.answer f .ok [byteAt f.body 0] (s.setLibSlot k { s.libSlot k with record := none })

/-- PROTECT (R144). -/
def ownProtect (f : Frame) (s : State) : State :=
  match slotOf (byteAt f.body 0) with
  | none => s.answer f .badArg [byteAt f.body 0]
  | some k =>
    match u1At f.body 1 with
    | 0 => State.answer f .ok ([byteAt f.body 0] ++ boolByte false) (s.setLibSlot k { s.libSlot k with guarded := false })
    | 1 => State.answer f .ok ([byteAt f.body 0] ++ boolByte true) (s.setLibSlot k { s.libSlot k with guarded := true })
    | _ => s.answer f .badArg [byteAt f.body 0]

/-- One entry of LIST: occupancy, protect flag and name, zero for an EMPTY slot (R145, chapter 11). -/
def listEntry (x : LibSlot) : List Byte :=
  match x.record with
  | some r => u1 1 ++ boolByte x.guarded ++ r.bytes.take 16
  | none => u1 0 ++ boolByte x.guarded ++ List.replicate 16 0

/-- How many slots a LIST returns (R145). -/
def listCount (first count : Nat) : Nat :=
  min count (64 - first)

/-- LIST (R145). -/
def ownList (f : Frame) (s : State) : State :=
  match slotOf (byteAt f.body 0) with
  | none => s.answer f .badArg []
  | some k =>
    if 1 ≤ u1At f.body 1 ∧ u1At f.body 1 ≤ 32 then
      s.answer f .ok (u1 (listCount k.val (u1At f.body 1))
        ++ ((s.library.toList.drop k.val).take (listCount k.val (u1At f.body 1))).flatMap listEntry)
    else s.answer f .badArg []

/-- Whether the boundary of a fired cue has been taken, its application event has not, and a LOAD entry of it names a slot in which two
states differ (R124, R125). -/
def State.loadDiffers (s t : State) : Bool :=
  s.cue.due && s.cue.fired.any fun e => e.action == .load && (slotOf e.slot).any fun k => s.libSlot k != t.libSlot k

/-- A request that changes library slots, as `taken` takes it. A change taken after the boundary is not seen by the LOAD entries of the cue
(R146), and these copy their slot when they are applied (R118, R126): so the application event is taken before a request that would change
such a slot. DEDUCED (log 25), unsafe in the order of the replies alone. -/
def State.libraryRequest (taken : State → State) (s : State) : State :=
  if s.loadDiffers (taken s) then taken s.applyCue else taken s

/-- STORE taken (R137, R146, R189). -/
def execStore (s : State) : Out :=
  .next (s.libraryRequest (serveKind .store ownStore))

/-- FETCH taken (R142, R189). -/
def execFetch (s : State) : Out :=
  .next (serveKind .fetch ownFetch s)

/-- ERASE taken (R143, R146, R189). -/
def execErase (s : State) : Out :=
  .next (s.libraryRequest (serveKind .erase ownErase))

/-- PROTECT taken (R144, R189). -/
def execProtect (s : State) : Out :=
  .next (serveKind .protect ownProtect s)

/-- LIST taken (R145, R189). -/
def execList (s : State) : Out :=
  .next (serveKind .list ownList s)

end Sys2Proof.Machine
end

