-- ==== Sys2Proof/Machine/Link.lean ====
section
/-! DEFINITION. The link interface: receiving request frames and sending replies, byte by byte (R182 to R187). Each command is one
byte received or sent within a selection, or the end of a selection; where the receiver is not in the state of its row the
event is not due and nothing changes (log 1). No byte is taken while the RESET pin is asserted (R201). -/

namespace Sys2Proof.Machine

/-- The receiver set to a state. -/
def State.setReceiver (r : Receiver) (s : State) : State :=
  { s with link := { s.link with receiver := r } }

/-- LEN from its two bytes, most significant first (R183). -/
def lenOf (first second : Byte) : Nat :=
  first.toNat * 256 + second.toNat

/-- Whether LEN is accepted (R183). -/
def lenOk (n : Nat) : Bool :=
  decide (2 ≤ n ∧ n ≤ 1024)

/-- The frame of its LEN bytes: TAG, KIND and body (R183). -/
def frameOf (bs : List Byte) : Frame :=
  { tag := byteAt bs 0, kind := byteAt bs 1, body := bs.drop 2 }

/-- A completed frame at the inbox: appended, or dropped with OVERRUN where 2 stand there (R185). -/
def State.toInbox (f : Frame) (s : State) : State :=
  if s.link.inbox.length < inboxPlaces then { s with link := { s.link with inbox := s.link.inbox ++ [f] } }
  else s.raise (.overrun f.tag)

/-- FRAME_BEGINS: a SYNC byte received while HUNTING (R183). -/
def State.frameBegins (s : State) : State :=
  match s.link.receiver with
  | .hunting => if s.resetPin then s else s.setReceiver (.length none)
  | .length _ => s
  | .body _ _ => s

/-- STRAY_BYTE: a byte other than 0x00 and SYNC received while HUNTING (R183). -/
def State.strayByte (b : Byte) (s : State) : State :=
  match s.link.receiver with
  | .hunting => if s.resetPin || b == 0x00 || b == 0xA9 then s else s.raise (.badFrame .stray)
  | .length _ => s
  | .body _ _ => s

/-- LEN_ACCEPTED: a second LEN byte that gives LEN from 2 to 1024 (R183). -/
def State.lenAccepted (b : Byte) (s : State) : State :=
  match s.link.receiver with
  | .length (some a) => if s.resetPin || !lenOk (lenOf a b) then s else s.setReceiver (.body (lenOf a b) [])
  | .length none => s
  | .hunting => s
  | .body _ _ => s

/-- LEN_REJECTED: a second LEN byte that gives LEN below 2 or above 1024 (R183). -/
def State.lenRejected (b : Byte) (s : State) : State :=
  match s.link.receiver with
  | .length (some a) =>
    if s.resetPin || lenOk (lenOf a b) then s else (s.setReceiver .hunting).raise (.badFrame .length)
  | .length none => s
  | .hunting => s
  | .body _ _ => s

/-- BYTE_KEPT: the first LEN byte, or a byte in BODY that is not the last (R183). -/
def State.byteKept (b : Byte) (s : State) : State :=
  if s.resetPin then s
  else
    match s.link.receiver with
    | .length none => s.setReceiver (.length (some b))
    | .body n kept => if 2 ≤ n then s.setReceiver (.body (n - 1) (kept ++ [b])) else s
    | .length (some _) => s
    | .hunting => s

/-- REQUEST_FRAME_COMPLETE: the last of the LEN bytes (R183, R185). -/
def State.frameComplete (b : Byte) (s : State) : State :=
  match s.link.receiver with
  | .body n kept =>
    if s.resetPin || n != 1 then s else (s.setReceiver .hunting).toInbox (frameOf (kept ++ [b]))
  | .length _ => s
  | .hunting => s

/-- LSEL_DEASSERT: a frame in LENGTH or BODY is discarded with BAD_FRAME; a reply being sent pauses where it stands, its partly
sent byte not counted (R182, R184, R187). -/
def State.deselect (s : State) : State :=
  match s.link.receiver with
  | .hunting => s
  | .length _ => if s.resetPin then s else (s.setReceiver .hunting).raise (.badFrame .deselect)
  | .body _ _ => if s.resetPin then s else (s.setReceiver .hunting).raise (.badFrame .deselect)

/-- REPLY_BYTE_SENT: a byte of the head reply other than its last is sent (R187). -/
def State.replyByteSent (s : State) : State :=
  match s.link.sendOrder with
  | r :: _ =>
    if s.resetPin || decide (r.bytes.length ≤ s.link.headSent + 1) then s
    else { s with link := { s.link with headSent := s.link.headSent + 1 } }
  | [] => s

/-- REPLY_SENT: the last byte of the head reply is sent; its place becomes free and it leaves the send order (R187). -/
def State.replySent (s : State) : State :=
  match s.link.sendOrder with
  | r :: rest =>
    if s.resetPin || s.link.headSent + 1 != r.bytes.length then s
    else { s with link := { s.link with sendOrder := rest, headSent := 0 } }
  | [] => s

/-- FRAME_BEGINS (R183). -/
def execFrameBegins (s : State) : Out :=
  .next s.frameBegins

/-- STRAY_BYTE (R183). -/
def execStrayByte (b : Byte) (s : State) : Out :=
  .next (s.strayByte b)

/-- LEN_ACCEPTED (R183). -/
def execLenAccepted (b : Byte) (s : State) : Out :=
  .next (s.lenAccepted b)

/-- LEN_REJECTED (R183). -/
def execLenRejected (b : Byte) (s : State) : Out :=
  .next (s.lenRejected b)

/-- BYTE_KEPT (R183). -/
def execByteKept (b : Byte) (s : State) : Out :=
  .next (s.byteKept b)

/-- REQUEST_FRAME_COMPLETE (R185). -/
def execRequestFrameComplete (b : Byte) (s : State) : Out :=
  .next (s.frameComplete b)

/-- LSEL_DEASSERT (R184). -/
def execLselDeassert (s : State) : Out :=
  .next s.deselect

/-- REPLY_BYTE_SENT (R187). -/
def execReplyByteSent (s : State) : Out :=
  .next s.replyByteSent

/-- REPLY_SENT (R187). -/
def execReplySent (s : State) : Out :=
  .next s.replySent

end Sys2Proof.Machine
end

