-- ==== Sys2Proof/Machine/Part.lean ====
section
/-! DEFINITION. The part: power-up and the RESET pin, SETUP, SOFT_RESET, IDENTIFY, PART_STATUS, UNKNOWN_KIND and the requests of the
notice unit (chapters 10 and 11). -/

namespace Sys2Proof.Machine

/-! ### Power-up and the RESET pin -/

/-- POWER_UP: the state after power-up; the memories hold what that power-up gives them (R2, R3, R22, R94, R147, R191, R201). -/
def State.powerUp (s : State) : State :=
  { State.reset with pending := s.pending, powerUps := s.powerUps + 1 }

/-- RESET_PIN_RELEASE: the part is ready in SETUP, and the internal frame timer starts one nominal period later (R181, R201). -/
def State.resetRelease (s : State) : State :=
  if s.resetPin then { s with resetPin := false, monitor := { s.monitor with sinceFrame := 0 } } else s

/-- POWER_UP (R191). -/
def execPowerUp (s : State) : Out :=
  .next s.powerUp

/-- RESET_PIN_ASSERT between events (R201); within the processing of a frame it is that frame start's own end (R48, log 23). -/
def execResetPinAssert (s : State) : Out :=
  .next s.resetAssert

/-- RESET_PIN_RELEASE (R181). -/
def execResetPinRelease (s : State) : Out :=
  .next s.resetRelease

/-! ### Requests of the request handler and the part -/

/-- Whether a frame's KIND is no request kind (R189). -/
def unknown (f : Frame) : Bool :=
  (Kind.ofByte f.kind).isNone

/-- UNKNOWN_KIND: a frame whose KIND is no request kind is taken and answered so (R189, R203). -/
def State.serveUnknown (s : State) : State :=
  match s.takeHead with
  | none => s
  | some (f, s1) => if unknown f then s1.answer f .unknownKind [] else s

/-- The characters of the part code "ZE3224" (R193). -/
def partCode : List Byte :=
  [0x5A, 0x45, 0x33, 0x32, 0x32, 0x34]

/-- The body of an IDENTIFY reply (R193, chapter 11). -/
def identifyBody : List Byte :=
  partCode ++ u1 1 ++ u1 24 ++ u1 64 ++ u1 32 ++ u1 32 ++ u1 2 ++ u1 4 ++ u2 1024

/-- IDENTIFY (R193). -/
def ownIdentify (f : Frame) (s : State) : State :=
  s.answer f .ok identifyBody

/-- How many instances stand in a state (R194). -/
def State.countIn (s : State) (st : InstState) : Nat :=
  allInsts.countP fun i => (s.inst i).state = st

/-- The code of the monitor's state in PART_STATUS (chapter 11). -/
def LockState.code : LockState → Nat
  | .free => 0
  | .locked => 1

/-- The setup record in PART_STATUS, all zero in SETUP (R194, chapter 11). -/
def setupField (s : State) : List Byte :=
  match s.run with
  | some r => setupBytes r.rate r.farSize r.polarity
  | none => beBytes 7 0

/-- The body of a PART_STATUS reply, this request's own reserved place counted (R194, chapter 11). -/
def partStatusBody (s : State) : List Byte :=
  boolByte s.inRun ++ setupField s ++ u1 s.monitor.lock.code ++ u1 s.monitor.good ++ u1 s.monitor.bad
    ++ ([.empty, .ready, .waiting, .running, .held, .spilling, .cutting].flatMap fun st => u1 (s.countIn st))
    ++ u1 s.queue.length ++ u1 s.spill.length ++ boolByte s.cue.pendingFlag ++ u1 s.cue.list.length
    ++ boolByte s.access.isSome ++ u1 s.link.reserved ++ u1 s.link.sendOrder.length

/-- PART_STATUS (R194). -/
def ownPartStatus (f : Frame) (s : State) : State :=
  s.answer f .ok (partStatusBody s)

/-- The whole setup record taking effect, `ticks` after the last timed event: the pools are built, the ATN polarity is set, the last tap
is absent, and the part is in RUN, where a watch or timer whose moment under the new limits has passed is due at once (R20, R53,
R180, R192, log 3). -/
def State.enterRun (ticks : Nat) (rate : SampleRate) (size : FarSize) (pol : Polarity) (s : State) : State :=
  { s with run := some (Run.build rate size pol), link := { s.link with polarity := pol },
           tempo := { s.tempo with lastTap := none }, monitor := s.monitor.pass ticks }

/-- SETUP: the fields are checked before any memory access, then the sizing check is made (R18 to R20, R192). -/
def ownSetup (env : SetupEnv) (f : Frame) (s : State) : State :=
  match rateOf (uAt 4 f.body 0), farSizeOf (uAt 2 f.body 4), polarityOf (u1At f.body 6) with
  | some rate, some size, some pol =>
    let s1 := s.sized size env.upsets
    if s1.sizingPasses size then
      State.answer f .ok (setupBytes rate size pol ++ u2 rate.budget) (s1.enterRun env.ticks rate size pol)
    else s1.answer f .memoryAbsent []
  | _, _, _ => s.answer f .badArg []

/-! ### SOFT_RESET (R195) -/

/-- The engine's blocks after SOFT_RESET (R195 step 2): the pool rebuilt (R23), every instance EMPTY with its routing kept (R95), both
lists empty (R117), the cue unit empty (R132), the tempo and tap mode kept (R56), the memory service cleared (R168). A service
event still due finds every slot leftover (R168). -/
def State.softEngine (r : Run) (s : State) : State :=
  { s with run := some (Run.build r.rate r.farSize r.polarity),
           instances := s.instances.map fun x => Inst.emptyWith x.routing,
           queue := [], spill := [], cue := Cue.reset,
           tempo := { s.tempo with intervals := [], lastTap := none },
           corrections := [], errors := ErrorRecord.reset, access := none,
           serviceDue := s.serviceDue.map fun _ => r.rate.budget }

/-- SOFT_RESET in RUN: work in flight aborted, the engine reset, the notices cleared, the reply placed (R195). -/
def ownSoftReset (f : Frame) (s : State) : State :=
  match s.run with
  | some r =>
    let s1 := (s.answerGo .aborted CueCounts.zero).endAccess .aborted
    let s2 := s1.softEngine r
    State.answer f .ok [] { s2 with notices := s2.notices.clearAll }
  | none => s.answer f .badState []

/-! ### Requests of the notice unit (R198 to R200) -/

/-- NOTICE_READ (R199). -/
def ownNoticeRead (f : Frame) (s : State) : State :=
  s.answer f .ok s.notices.readBody

/-- NOTICE_CLEAR (R200). -/
def ownNoticeClear (f : Frame) (s : State) : State :=
  match clearEntries f.body with
  | some es => State.answer f .ok [] { s with notices := s.notices.clear es }
  | none => s.answer f .badArg []

/-- The enable setting of a code (R198). -/
def enableOf (b : Byte) : Option Bool :=
  match b.toNat with
  | 0 => some false
  | 1 => some true
  | _ => none

/-- NOTICE_CONFIG (R198): the reply carries the configuration as it now stands. -/
def ownNoticeConfig (f : Frame) (s : State) : State :=
  match Group.ofCode (byteAt f.body 0), enableOf (byteAt f.body 1) with
  | some g, some e =>
    if u1At f.body 2 ≤ 3 then
      State.answer f .ok (u1 g.code ++ boolByte e ++ u1 (u1At f.body 2))
        { s with notices := s.notices.setConfig g { enabled := e, priority := u1At f.body 2 } }
    else s.answer f .badArg []
  | _, _ => s.answer f .badArg []

/-! ### The rows -/

/-- UNKNOWN_KIND (R189). -/
def execUnknownKind (s : State) : Out :=
  .next s.serveUnknown

/-- IDENTIFY taken (R193, R189). -/
def execIdentify (s : State) : Out :=
  .next (serveKind .identify ownIdentify s)

/-- PART_STATUS taken (R194, R189). -/
def execPartStatus (s : State) : Out :=
  .next (serveKind .partStatus ownPartStatus s)

/-- SETUP taken, `env.ticks` reference ticks after the last timed event, with what the external DRAM does to its words before the read
back (R180, R192, R189). -/
def execSetup (env : SetupEnv) (s : State) : Out :=
  .next (serveKind .setup (ownSetup env) s)

/-- SOFT_RESET taken (R195, R189). -/
def execSoftReset (s : State) : Out :=
  .next (serveKind .softReset ownSoftReset s)

/-- NOTICE_READ taken (R199, R189). -/
def execNoticeRead (s : State) : Out :=
  .next (serveKind .noticeRead ownNoticeRead s)

/-- NOTICE_CLEAR taken (R200, R189). -/
def execNoticeClear (s : State) : Out :=
  .next (serveKind .noticeClear ownNoticeClear s)

/-- NOTICE_CONFIG taken (R198, R189). -/
def execNoticeConfig (s : State) : Out :=
  .next (serveKind .noticeConfig ownNoticeConfig s)

end Sys2Proof.Machine
end

