-- ==== Sys2Proof/Machine/Dispatch.lean ====
section
/-! DEFINITION. The effect of each command: one direct call of its meaning per row of spec/opcode_table.json. -/

namespace Sys2Proof.Machine

/-- The effect of a command on everything but the queue of commands. -/
def exec (i : Instr) (s : State) : Host.Outcome State Fault Refusal :=
  match i with
  | .powerUp => Sys2Proof.Machine.execPowerUp s
  | .resetPinAssert => Sys2Proof.Machine.execResetPinAssert s
  | .resetPinRelease => Sys2Proof.Machine.execResetPinRelease s
  | .requestFrameComplete b => Sys2Proof.Machine.execRequestFrameComplete b s
  | .strayByte b => Sys2Proof.Machine.execStrayByte b s
  | .lenRejected b => Sys2Proof.Machine.execLenRejected b s
  | .lselDeassert => Sys2Proof.Machine.execLselDeassert s
  | .replySent => Sys2Proof.Machine.execReplySent s
  | .unknownKind => Sys2Proof.Machine.execUnknownKind s
  | .identify => Sys2Proof.Machine.execIdentify s
  | .partStatus => Sys2Proof.Machine.execPartStatus s
  | .setup env => Sys2Proof.Machine.execSetup env s
  | .softReset => Sys2Proof.Machine.execSoftReset s
  | .poolStatus => Sys2Proof.Machine.execPoolStatus s
  | .store => Sys2Proof.Machine.execStore s
  | .fetch => Sys2Proof.Machine.execFetch s
  | .erase => Sys2Proof.Machine.execErase s
  | .protect => Sys2Proof.Machine.execProtect s
  | .list => Sys2Proof.Machine.execList s
  | .load => Sys2Proof.Machine.execLoad s
  | .unload => Sys2Proof.Machine.execUnload s
  | .start => Sys2Proof.Machine.execStart s
  | .stopSpill => Sys2Proof.Machine.execStopSpill s
  | .stopCut => Sys2Proof.Machine.execStopCut s
  | .hold => Sys2Proof.Machine.execHold s
  | .unhold => Sys2Proof.Machine.execUnhold s
  | .set => Sys2Proof.Machine.execSet s
  | .get => Sys2Proof.Machine.execGet s
  | .instanceStatus => Sys2Proof.Machine.execInstanceStatus s
  | .cueAdd => Sys2Proof.Machine.execCueAdd s
  | .cueClear => Sys2Proof.Machine.execCueClear s
  | .cueList => Sys2Proof.Machine.execCueList s
  | .go => Sys2Proof.Machine.execGo s
  | .goPin => Sys2Proof.Machine.execGoPin s
  | .cueApplication => Sys2Proof.Machine.execCueApplication s
  | .tempoSet => Sys2Proof.Machine.execTempoSet s
  | .tempoGet => Sys2Proof.Machine.execTempoGet s
  | .tapMode => Sys2Proof.Machine.execTapMode s
  | .tapEdge => Sys2Proof.Machine.execTapEdge s
  | .memErrors => Sys2Proof.Machine.execMemErrors s
  | .lineRead => Sys2Proof.Machine.execLineRead s
  | .lineWrite => Sys2Proof.Machine.execLineWrite s
  | .noticeRead => Sys2Proof.Machine.execNoticeRead s
  | .noticeClear => Sys2Proof.Machine.execNoticeClear s
  | .noticeConfig => Sys2Proof.Machine.execNoticeConfig s
  | .afsEdge ticks lanes env => Sys2Proof.Machine.execAfsEdge ticks lanes env s
  | .edgeWatchExpiry env => Sys2Proof.Machine.execEdgeWatchExpiry env s
  | .internalFrameTimer env => Sys2Proof.Machine.execInternalFrameTimer env s
  | .holdover => Sys2Proof.Machine.execHoldover s
  | .lockRestored => Sys2Proof.Machine.execLockRestored s
  | .windowEnd k => Sys2Proof.Machine.execWindowEnd k s
  | .tailDecision k => Sys2Proof.Machine.execTailDecision k s
  | .release k => Sys2Proof.Machine.execRelease k s
  | .serviceEvent us => Sys2Proof.Machine.execServiceEvent us s
  | .frameBegins => Sys2Proof.Machine.execFrameBegins s
  | .lenAccepted b => Sys2Proof.Machine.execLenAccepted b s
  | .byteKept b => Sys2Proof.Machine.execByteKept b s
  | .replyByteSent => Sys2Proof.Machine.execReplyByteSent s

end Sys2Proof.Machine
end

