-- ==== Sys2Proof/Safety.lean ====
section
/-! DEFINITION. What holds of the part between events, block by block: the invariants that the spec states or relies on. Each is a
property of every state that a run reaches; `State.reset` is one of them. -/

namespace Sys2Proof.Machine

/-! ### Limits of programs and stored values (R7, R29, R61, R134) -/

/-- The limits of a line entry (R134). -/
def LineProg.wf (l : LineProg) : Prop :=
  1 ≤ l.length ∧ (if l.placement = .near then l.length ≤ 4 else l.length ≤ 128)

/-- The destination of a tap lies among `n` lines (R29). -/
def Dest.wf (n : Nat) : Dest → Prop
  | .outA => True
  | .outB => True
  | .line k => k < n

/-- The limits of a tap entry in a program of `n` lines (R29, R134). -/
structure TapProg.wf (n : Nat) (t : TapProg) : Prop where
  line  : t.line < n
  fixed : 256 ≤ t.fixed ∧ t.fixed ≤ 67108352
  ticks : 1 ≤ t.ticks ∧ t.ticks ≤ 384
  depth : t.depth ≤ 65535
  gain  : -32768 ≤ t.gain ∧ t.gain ≤ 32767
  damp  : t.damp ≤ 32767
  dest  : Dest.wf n t.dest

/-- The limits of an LFO entry (R61, R134). -/
def LfoProg.wf (l : LfoProg) : Prop :=
  10 ≤ l.rate ∧ l.rate ≤ 20000 ∧ l.phase ≤ 65535

/-- Whether 16 bytes are a name: 1 to 16 characters from 0x20 to 0x7E, then zero fill (R134, R138). -/
def nameWf (bs : List Byte) : Prop :=
  bs.length = 16 ∧ ∃ n, 1 ≤ n ∧ n ≤ 16 ∧ (∀ b ∈ bs.take n, 0x20 ≤ b.toNat ∧ b.toNat ≤ 0x7E) ∧ ∀ b ∈ bs.drop n, b = 0

/-- The limits of a program (R134). -/
structure Program.wf (p : Program) : Prop where
  name       : nameWf p.name
  lineCount  : 1 ≤ p.lines.length ∧ p.lines.length ≤ 8
  tapCount   : 1 ≤ p.taps.length ∧ p.taps.length ≤ 32
  lines      : ∀ l ∈ p.lines, l.wf
  taps       : ∀ t ∈ p.taps, t.wf p.lines.length
  lfo0       : p.lfo0.wf
  lfo1       : p.lfo1.wf
  inGain     : p.inGain ≤ 32767
  outGain    : p.outGain ≤ 32767
  glide      : p.glide ≤ 65535
  tailFloor  : p.tailFloor ≤ 8
  quiet      : 1 ≤ p.quiet ∧ p.quiet ≤ 15
  spillLimit : 1 ≤ p.spillLimit ∧ p.spillLimit ≤ 65535

/-! ### A program as its record (R204) -/

/-- The code of a placement (R204). -/
def Placement.code : Placement → Nat
  | .near => 0
  | .far => 1
  | .any => 2

/-- The code of an input feed (R204). -/
def Feed.code : Feed → Nat
  | .none => 0
  | .a => 1
  | .b => 2
  | .mid => 3

/-- The code of a destination (R204). -/
def Dest.code : Dest → Nat
  | .line k => k
  | .outA => 8
  | .outB => 9

/-- The 4 bytes of a line entry, its fill sent as zero (R204). -/
def LineProg.bytes (l : LineProg) : List Byte :=
  u1 l.placement.code ++ u1 l.length ++ u1 l.feed.code ++ u1 0

/-- The 12 bytes of a tap entry (R204). -/
def TapProg.bytes (t : TapProg) : List Byte :=
  s2 t.gain ++ u2 t.depth ++ u2 t.damp ++ u4 (t.source.code * 2 ^ 30 + t.dest.code * 2 ^ 26 + t.fixed)
    ++ u2 (t.line * 2 ^ 13 + t.lfo.code * 2 ^ 11 + (if t.hold then 1 else 0) * 2 ^ 9 + t.ticks)

/-- The 8 bytes of an LFO entry (R204). -/
def LfoProg.bytes (l : LfoProg) : List Byte :=
  u2 l.rate ++ u1 l.shape.code ++ u2 l.phase ++ beBytes 3 0

/-- The preset record of a program, its fill sent as zero (R204). -/
def Program.record (p : Program) : List Byte :=
  p.name ++ u1 p.lines.length ++ u1 p.taps.length ++ s2 p.inGain ++ s2 p.outGain ++ u2 p.glide ++ u1 p.tailFloor
    ++ u1 p.quiet ++ u2 p.spillLimit ++ beBytes 4 0 ++ p.lines.flatMap LineProg.bytes ++ p.taps.flatMap TapProg.bytes
    ++ p.lfo0.bytes ++ p.lfo1.bytes

/-! ### Link (R183, R185, R186, R187) -/

/-- How many requests are in flight: a fired GO and an accepted line access (R189). -/
def State.inFlight (s : State) : Nat :=
  (match s.cue.origin with
   | some (.request _) => 1
   | some .pin => 0
   | none => 0) + if s.access.isSome then 1 else 0

/-- What the receiver holds in BODY: bytes still to come, within a LEN of 2 to 1024 (R183). -/
def Receiver.wf : Receiver → Prop
  | .hunting => True
  | .length _ => True
  | .body n kept => 1 ≤ n ∧ 2 ≤ n + kept.length ∧ n + kept.length ≤ 1024

/-- The bytes sent of the head reply, 0 with an empty send order (R187). -/
def Link.headWf (l : Link) : Prop :=
  match l.sendOrder with
  | [] => l.headSent = 0
  | r :: _ => l.headSent < r.bytes.length

/-- The link between events: at most 2 inbox frames, at most 4 outbox places in use, one reserved for each request in flight. -/
structure LinkInv (s : State) : Prop where
  inbox    : s.link.inbox.length ≤ 2
  outbox   : s.link.sendOrder.length + s.link.reserved ≤ 4
  reserved : s.link.reserved = s.inFlight
  origin   : s.cue.pendingFlag = s.cue.origin.isSome
  head     : s.link.headWf
  receiver : s.link.receiver.wf

/-! ### Tempo (R49, R52, R53) -/

/-- The tempo unit between events. -/
structure TempoInv (s : State) : Prop where
  tempo     : 3000 ≤ s.tempo.tempo ∧ s.tempo.tempo ≤ 30000
  count     : s.tempo.intervals.length ≤ 4
  intervals : ∀ r, s.run = some r → ∀ i ∈ s.tempo.intervals, r.rate.hz / 5 ≤ i ∧ i ≤ 2 * r.rate.hz
  age       : ∀ r, s.run = some r → ∀ a, s.tempo.lastTap = some a → a ≤ 2 * r.rate.hz + 1
  setup     : s.run = none → s.tempo.intervals = [] ∧ s.tempo.lastTap = none
  off       : s.tempo.tapMode = false → s.tempo.intervals = [] ∧ s.tempo.lastTap = none

/-! ### Frame clock monitor (R174, R177, R179) -/

/-- The monitor between events: a bad count of 4 has ended LOCKED, a good count of 16 has ended FREE. -/
def MonitorInv (s : State) : Prop :=
  match s.monitor.lock with
  | .locked => s.monitor.good ≤ 16 ∧ s.monitor.bad ≤ 3
  | .free => s.monitor.good ≤ 15 ∧ s.monitor.bad ≤ 4

/-! ### Cue unit (R118, R119, R122, R124) -/

/-- The cue unit between events. -/
structure CueInv (s : State) : Prop where
  list    : s.cue.list.length ≤ 32
  fired   : s.cue.fired.length ≤ 32
  domain  : ∀ e ∈ s.cue.list ++ s.cue.fired, e.domainOk = true
  origin  : s.cue.pendingFlag = s.cue.origin.isSome
  pending : s.cue.pendingFlag = true ∧ s.cue.fired ≠ [] ∨ s.cue.pendingFlag = false ∧ s.cue.fired = []
  due     : s.cue.due = true → s.cue.pendingFlag = true
  setup   : s.run = none → s.cue.list = [] ∧ s.cue.pendingFlag = false

/-! ### Memory service (R154, R156) -/

/-- The correction queue and the counts of the error record between events. -/
structure ServiceInv (s : State) : Prop where
  count         : s.corrections.length ≤ 8
  distinct      : (s.corrections.map WriteBack.addr).Nodup
  corrected     : s.errors.corrected ≤ 65535
  uncorrectable : s.errors.uncorrectable ≤ 65535
  dropped       : s.errors.dropped ≤ 65535

/-! ### Preset library (R133, R137, R141) -/

/-- A stored record passes every check of STORE and spells the program held with it. -/
structure PresetRecord.wf (r : PresetRecord) : Prop where
  size    : 64 ≤ r.bytes.length ∧ r.bytes.length ≤ 464
  passes  : recordFault r.bytes = none
  program : programOf r.bytes = some r.program

/-- Every record in the library is loadable (07, introduction). -/
def LibraryInv (s : State) : Prop :=
  ∀ k r, (s.libSlot k).record = some r → r.wf

/-! ### Instances and lists (R7, R69, R100, R108) -/

/-- The instance table and its lists between events. -/
structure InstancesInv (s : State) : Prop where
  queueOnce : s.queue.Nodup
  spillOnce : s.spill.Nodup
  waiting   : ∀ i, i ∈ s.queue ↔ (s.inst i).state = .waiting
  spilling  : ∀ i, i ∈ s.spill ↔ (s.inst i).state = .spilling
  holds     : ∀ i, (s.inst i).running.isSome = (s.inst i).state.holdsPages
  program   : ∀ i, (s.inst i).program.isSome = true ↔ (s.inst i).state ≠ .empty
  slot      : ∀ i, (s.inst i).slot.isSome = true ↔ (s.inst i).state ≠ .empty
  setup     : s.run = none → ∀ i, (s.inst i).state = .empty
  cue       : s.run = none → s.cue.due = false

/-- The stored values of every instance and the programs of every record lie within their limits (R75, R88, R134). -/
structure ProgramsInv (s : State) : Prop where
  library   : ∀ k r, (s.libSlot k).record = some r → r.program.wf
  instances : ∀ i p, (s.inst i).program = some p → p.wf

/-! ### The budget (R16) -/

/-- The budget in use is the sum of the held costs and never exceeds B. -/
structure BudgetInv (s : State) : Prop where
  instances : InstancesInv s
  sum       : ∀ r, s.run = some r → r.budgetInUse = (allInsts.map fun i => (s.inst i).cost).sum
  bound     : ∀ r, s.run = some r → r.budgetInUse ≤ r.rate.budget

/-! ### The page pool (R4 to R7) -/

/-- The free list of a pool. -/
def Run.free (r : Run) : Pool → List Nat
  | .near => r.nearFree
  | .far => r.farFree

/-- The page owner table of a pool. -/
def Run.owners (r : Run) : Pool → List (Option Owner)
  | .near => r.nearOwner
  | .far => r.farOwner

/-- The page list of line `j` of an instance, where it lies in a pool. -/
def Inst.pageList (x : Inst) (p : Pool) (j : Nat) : List Nat :=
  match x.running.bind fun r => r.lines[j]? with
  | some l => if l.pool = p then l.pages else []
  | none => []

/-- One pool between events: every page is free once or in one page list once, and the owner table says which (R6). -/
structure PoolWf (s : State) (r : Run) (p : Pool) : Prop where
  freeOnce  : (r.free p).Nodup
  tableSize : (r.owners p).length = r.poolPages p
  free      : ∀ q, q ∈ r.free p ↔ (r.owners p)[q]? = some none
  owned     : ∀ q i j, q ∈ (s.inst i).pageList p j ↔ (r.owners p)[q]? = some (some ⟨i, j⟩)
  pagesOnce : ∀ i j, ((s.inst i).pageList p j).Nodup
  total     : (r.free p).length + (allInsts.map fun i => (s.inst i).pagesIn p).sum = r.poolPages p

/-- While an instance holds pages, each of its lines has as many as its programmed length, which is at least 1 (R7). -/
def Inst.lengthsWf (x : Inst) : Prop :=
  ∀ p r, x.program = some p → x.running = some r →
    r.lines.map (fun l => l.pages.length) = p.lines.map LineProg.length

/-- The pools and every page list between events, with what a grant needs: programs whose lines have pages, write-backs that
stay in the FAR pool, and in SETUP nothing of the memory service in flight (R159, R161). -/
structure PoolInv (s : State) : Prop where
  instances   : InstancesInv s
  programs    : ProgramsInv s
  pools       : ∀ r p, s.run = some r → PoolWf s r p
  lengths     : ∀ i, (s.inst i).lengthsWf
  corrections : ∀ r, s.run = some r → ∀ e ∈ s.corrections, e.addr < r.farSize.pages * 2048
  setup       : s.run = none → s.corrections = [] ∧ s.serviceDue = none ∧ s.access = none

/-! ### Running fields (R27, R30, R61, R109) -/

/-- A sample in range (00 "Number formats"). -/
def sampleOk (x : Int) : Prop :=
  -8388608 ≤ x ∧ x ≤ 8388607

/-- The running fields of a line (R27). -/
def LineRun.wf (l : LineRun) : Prop :=
  l.f ≤ l.len ∧ (0 < l.len → l.w < l.len)

/-- The running fields of a tap (R30). -/
structure TapRun.wf (t : TapRun) : Prop where
  target   : 256 ≤ t.target ∧ t.target ≤ 67108352
  glide    : 256 ≤ t.glide ∧ t.glide ≤ 67108352
  gain     : -32768 ≤ t.gain ∧ t.gain ≤ 32767
  heldRead : sampleOk t.heldRead
  damping  : sampleOk t.damping

/-- The running fields of an instance (R27, R30, R33, R61, R109). -/
structure Running.wf (r : Running) : Prop where
  lines    : ∀ l ∈ r.lines, l.wf
  taps     : ∀ t ∈ r.taps, t.wf
  phases   : r.lfo0.phase < 4294967296 ∧ r.lfo1.phase < 4294967296
  incs     : 1 ≤ r.lfo0.inc ∧ r.lfo0.inc ≤ 1789570 ∧ 1 ≤ r.lfo1.inc ∧ r.lfo1.inc ≤ 1789570
  gains    : r.inGain ≤ 32767 ∧ r.outGain ≤ 32767
  progress : r.windowProgress ≤ 255
  peak     : r.windowPeak ≤ 8388608

/-- Every running field lies in its range, over programs within their limits and a tempo in its range. -/
structure RunningInv (s : State) : Prop where
  programs : ProgramsInv s
  tempo    : 3000 ≤ s.tempo.tempo ∧ s.tempo.tempo ≤ 30000
  running  : ∀ i r, (s.inst i).running = some r → r.wf

/-! ### Tail monitor (R109, R112) -/

/-- The counts of a spill: at most 15 and 65,535, and below these while a SPILLING instance has no decision standing. -/
def TailInv (s : State) : Prop :=
  ∀ i, (s.inst i).quietCount ≤ 15 ∧ (s.inst i).spillWindows ≤ 65535 ∧
    ((s.inst i).state = .spilling → (s.inst i).decision = none →
      (s.inst i).quietCount ≤ 14 ∧ (s.inst i).spillWindows ≤ 65534)

/-! ### Audio ports (R170, R171) -/

/-- Every sample at the ports lies in its range. -/
def PortsInv (s : State) : Prop :=
  ∀ k : PortNo, sampleOk s.ports.inputs[k.val] ∧ sampleOk s.ports.pending[k.val] ∧ sampleOk s.ports.transmit[k.val]

/-! ### Notices (R197, R198) -/

/-- Every group's priority is one of 0 to 3. -/
def NoticesInv (s : State) : Prop :=
  ∀ g, (s.notices.config g).priority ≤ 3

/-! ### Taking a request (R189) -/

/-- A request can be taken: RESET is not asserted, `f` is the oldest frame of the inbox with `rest` behind it, and the outbox has a
free place. -/
structure CanTake (s : State) (f : Frame) (rest : List Frame) : Prop where
  released : s.resetPin = false
  head     : s.link.inbox = f :: rest
  place    : s.link.sendOrder.length + s.link.reserved < 4

/-- The state after the request `f` is taken and answered at once, over the state the rest of its effect leaves: the frame has left the
inbox and its reply stands last in the send order (R186, R187, R189). -/
def State.replied (f : Frame) (rest : List Frame) (st : Status) (body : List Byte) (s : State) : State :=
  { s with link := { s.link with inbox := rest,
                                 sendOrder := s.link.sendOrder ++ [⟨f.tag, replyKind f.kind, st, body⟩] } }

/-- The state after the request `f` is taken and stays in flight: the frame has left the inbox and its place stays reserved. -/
def State.takenInFlight (rest : List Frame) (s : State) : State :=
  { s with link := { s.link with inbox := rest, reserved := s.link.reserved + 1 } }

/-- The byte that names an instance. -/
def instByte (i : InstNo) : Byte :=
  BitVec.ofNat 8 i.val

/-- The state after an instance request is taken and answered at once: its body is the instance number and the state the instance
stands in after it (R73). -/
def State.repliedInst (f : Frame) (rest : List Frame) (st : Status) (i : InstNo) (s : State) : State :=
  s.replied f rest st [instByte i, BitVec.ofNat 8 (s.inst i).state.code]

/-- The byte that names a library slot. -/
def slotByte (k : SlotNo) : Byte :=
  BitVec.ofNat 8 k.val

/-- The request kind that a row takes; none for a row that takes no request of one kind (R189, R203). -/
def requestKind : Instr → Option Kind
  | .identify => some .identify
  | .partStatus => some .partStatus
  | .setup _ => some .setup
  | .softReset => some .softReset
  | .poolStatus => some .poolStatus
  | .store => some .store
  | .fetch => some .fetch
  | .erase => some .erase
  | .protect => some .protect
  | .list => some .list
  | .load => some .load
  | .unload => some .unload
  | .start => some .start
  | .stopSpill => some .stop
  | .stopCut => some .stop
  | .hold => some .hold
  | .unhold => some .unhold
  | .set => some .set
  | .get => some .get
  | .instanceStatus => some .instanceStatus
  | .cueAdd => some .cueAdd
  | .cueClear => some .cueClear
  | .cueList => some .cueList
  | .go => some .go
  | .tempoSet => some .tempoSet
  | .tempoGet => some .tempoGet
  | .tapMode => some .tapMode
  | .memErrors => some .memErrors
  | .lineRead => some .lineRead
  | .lineWrite => some .lineWrite
  | .noticeRead => some .noticeRead
  | .noticeClear => some .noticeClear
  | .noticeConfig => some .noticeConfig
  | .powerUp => none
  | .resetPinAssert => none
  | .resetPinRelease => none
  | .requestFrameComplete _ => none
  | .strayByte _ => none
  | .lenRejected _ => none
  | .lselDeassert => none
  | .replySent => none
  | .unknownKind => none
  | .goPin => none
  | .cueApplication => none
  | .tapEdge => none
  | .afsEdge _ _ _ => none
  | .edgeWatchExpiry _ => none
  | .internalFrameTimer _ => none
  | .holdover => none
  | .lockRestored => none
  | .windowEnd _ => none
  | .tailDecision _ => none
  | .release _ => none
  | .serviceEvent _ => none
  | .frameBegins => none
  | .lenAccepted _ => none
  | .byteKept _ => none
  | .replyByteSent => none

end Sys2Proof.Machine
end

