-- ==== Sys2Proof/Certificates/Slice0/Obligations.lean ====
section
/-! DEFINITION. The statements for the provers. Where a statement gives the next state as one equation, everything that the equation
does not change is unchanged: the equation is the frame. A docstring that names a log names a choice of the model. -/

open Sys2Proof Sys2Proof.Machine

/-! ### The block as a whole -/

/-- A step takes the command at the front of the queue and has its effect on the state with the queue's rest. With nothing waiting
the block idles (log 4). -/
def Obligations.StepRunsFrontCommand : Prop :=
  (∀ (s : State) (c : Instr) (rest : List Instr), s.pending = c :: rest → step s = exec c { s with pending := rest }) ∧
  ∀ s : State, s.pending = [] → step s = .next s

/-- What power-up leaves, field by field (R22, R56, R71, R94, R116, R131, R147, R167, R181, R191, R197, R201). -/
def Obligations.ResetLeavesSpecValues : Prop :=
  let s := State.reset
  (s.run = none ∧ s.queue = [] ∧ s.spill = []) ∧
  (∀ i, (s.inst i).state = .empty ∧ (s.inst i).program = none ∧ (s.inst i).slot = none ∧ (s.inst i).running = none ∧
    (s.inst i).routing = ⟨none, none, none, none⟩ ∧ (s.inst i).clip = false ∧ (s.inst i).stopReason = .none ∧
    (s.inst i).lastLevel = none ∧ (s.inst i).quietCount = 0 ∧ (s.inst i).spillWindows = 0) ∧
  (∀ k, (s.libSlot k).record = none ∧ (s.libSlot k).guarded = false) ∧
  (s.tempo.tempo = 12000 ∧ s.tempo.tapMode = true ∧ s.tempo.intervals = [] ∧ s.tempo.lastTap = none) ∧
  (s.cue.list = [] ∧ s.cue.fired = [] ∧ s.cue.pendingFlag = false ∧ s.cue.origin = none) ∧
  (s.corrections = [] ∧ s.access = none ∧ s.errors.corrected = 0 ∧ s.errors.lastCorrected = none ∧
    s.errors.uncorrectable = 0 ∧ s.errors.firstUncorr = none ∧ s.errors.dropped = 0) ∧
  (∀ k : PortNo, s.ports.inputs[k.val] = 0 ∧ s.ports.pending[k.val] = 0 ∧ s.ports.transmit[k.val] = 0) ∧
  (s.monitor.lock = .free ∧ s.monitor.good = 0 ∧ s.monitor.bad = 0 ∧ s.monitor.sinceMark = none) ∧
  (s.link.receiver = .hunting ∧ s.link.inbox = [] ∧ s.link.sendOrder = [] ∧ s.link.reserved = 0 ∧
    s.link.polarity = .activeLow) ∧
  (∀ g, s.notices.pending g = false ∧ (s.notices.config g).enabled = true) ∧
  ([Group.port, .memory, .inst, .cue, .tempo, .link].map fun g => (s.notices.config g).priority) = [3, 3, 2, 2, 1, 1]

/-- POWER_UP puts every field at its power-up value, with memory contents of its own (logs 6 and 14). RESET_PIN_ASSERT does the same
but keeps the library and both delay memories. RESET_PIN_RELEASE ends the assertion and starts the internal frame timer's first
period; of a pin not asserted it changes nothing (log 1). -/
def Obligations.PowerUpAndResetPin : Prop :=
  ∀ s : State,
    exec .powerUp s = .next { State.reset with pending := s.pending, powerUps := s.powerUps + 1 } ∧
    exec .resetPinAssert s =
      .next { State.reset with pending := s.pending, powerUps := s.powerUps, library := s.library, near := s.near,
                               dram := s.dram, resetPin := true } ∧
    (s.resetPin = true →
      exec .resetPinRelease s = .next { s with resetPin := false, monitor := { s.monitor with sinceFrame := 0 } }) ∧
    (s.resetPin = false → exec .resetPinRelease s = .next s)

/-- While the RESET pin is asserted the part takes no byte, sends none, takes no request, no pin edge, no frame sync edge and no
expiry, and its timer supplies no frame start (R53, R123, R181, R201). -/
def Obligations.NothingEntersWhileResetAsserted : Prop :=
  ∀ (c : Instr) (s : State), s.resetPin = true →
    ((requestKind c).isSome = true ∨ c = .unknownKind ∨ c = .frameBegins ∨ c = .lselDeassert ∨ c = .replyByteSent ∨
      c = .replySent ∨ c = .goPin ∨ c = .tapEdge ∨
      (∃ b, c = .strayByte b ∨ c = .lenAccepted b ∨ c = .lenRejected b ∨ c = .byteKept b ∨ c = .requestFrameComplete b) ∨
      (∃ d lanes e, c = .afsEdge d lanes e) ∨ ∃ e, c = .edgeWatchExpiry e ∨ c = .internalFrameTimer e) →
    exec c s = .next s

/-- RDY, ATN and LDO as functions of the state, and the output lanes bit by bit: slot k of OUT0 to OUT15 in AOUT0 and of OUT16 to OUT31 in
AOUT1, in ascending order, each its transmit value in the top 24 bits, most significant bit first, and 8 bits of zero (R169, R171, R185,
R187, R188, R201). They are functions of the state and no fields of it (log 16). -/
def Obligations.PinsFollowTheState : Prop :=
  ∀ s : State,
    (s.resetPin = false →
      (s.rdy = true ↔ s.link.inbox.length < 2) ∧
      (s.atnActive = true ↔ s.link.sendOrder ≠ [] ∨
        ∃ g, (s.notices.config g).enabled = true ∧ 1 ≤ (s.notices.config g).priority ∧ s.notices.pending g = true)) ∧
    (s.resetPin = true → s.rdy = false ∧ s.atnActive = false) ∧
    (s.link.polarity = .activeLow → s.atnLevel = !s.atnActive) ∧
    (s.link.polarity = .activeHigh → s.atnLevel = s.atnActive) ∧
    (s.link.sendOrder = [] → s.nextLdo = 0x00) ∧
    (∀ r rest, s.link.sendOrder = r :: rest → s.nextLdo = r.bytes.getD s.link.headSent 0) ∧
    ∀ (k : PortNo) (j : Nat), j < 32 →
      BitVec.getMsbD (if k.val < 16 then s.aout0 else s.aout1) (32 * (k.val % 16) + j) =
        (decide (j < 24) && (BitVec.ofInt 24 s.ports.transmit[k.val]).getMsbD j)

/-! ### The control link -/

/-- The receiver's table, byte by byte, in every receiver state, with the inbox taking or dropping a complete frame (R183, R185);
and a deselection, which discards a frame in LENGTH or BODY with BAD_FRAME, cause DESELECT (R184). `a * 256 + b` is LEN. -/
def Obligations.ReceiverTakesEachByte : Prop :=
  ∀ (s : State) (b : Byte), s.resetPin = false →
    (s.link.receiver = .hunting →
      exec .frameBegins s = .next (s.setReceiver (.length none)) ∧
      (b ≠ 0x00 → b ≠ 0xA9 → exec (.strayByte b) s = .next (s.raise (.badFrame .stray))) ∧
      (b = 0x00 → exec (.strayByte b) s = .next s)) ∧
    (s.link.receiver = .length none → exec (.byteKept b) s = .next (s.setReceiver (.length (some b)))) ∧
    (∀ a, s.link.receiver = .length (some a) →
      (2 ≤ a.toNat * 256 + b.toNat → a.toNat * 256 + b.toNat ≤ 1024 →
        exec (.lenAccepted b) s = .next (s.setReceiver (.body (a.toNat * 256 + b.toNat) []))) ∧
      (a.toNat * 256 + b.toNat < 2 ∨ 1024 < a.toNat * 256 + b.toNat →
        exec (.lenRejected b) s = .next ((s.setReceiver .hunting).raise (.badFrame .length)))) ∧
    (∀ n kept, s.link.receiver = .body n kept → 2 ≤ n →
      exec (.byteKept b) s = .next (s.setReceiver (.body (n - 1) (kept ++ [b])))) ∧
    (∀ kept tag kind body, s.link.receiver = .body 1 kept → kept ++ [b] = tag :: kind :: body →
      (s.link.inbox.length < 2 →
        exec (.requestFrameComplete b) s =
          .next { s with link := { s.link with receiver := .hunting, inbox := s.link.inbox ++ [⟨tag, kind, body⟩] } }) ∧
      (2 ≤ s.link.inbox.length →
        exec (.requestFrameComplete b) s = .next ((s.setReceiver .hunting).raise (.overrun tag)))) ∧
    (s.link.receiver = .hunting → exec .lselDeassert s = .next s) ∧
    (s.link.receiver ≠ .hunting →
      exec .lselDeassert s = .next ((s.setReceiver .hunting).raise (.badFrame .deselect)))

/-- Each byte of the head reply but its last moves the sending on by one; its last frees the place and takes it off the send order
(R187). A reply is SYNC, LEN, TAG, KIND, status and body, each status by its code (chapter 11). -/
def Obligations.RepliesAreSentByteByByte : Prop :=
  (∀ (s : State) (r : Reply) (rest : List Reply), s.resetPin = false → s.link.sendOrder = r :: rest →
    (s.link.headSent + 1 < r.bytes.length →
      exec .replyByteSent s = .next { s with link := { s.link with headSent := s.link.headSent + 1 } }) ∧
    (s.link.headSent + 1 = r.bytes.length →
      exec .replySent s = .next { s with link := { s.link with sendOrder := rest, headSent := 0 } })) ∧
  (∀ r : Reply, r.bytes =
    0xA9 :: (beBytes 2 (3 + r.body.length) ++ [r.tag, r.kind, BitVec.ofNat 8 r.status.code] ++ r.body)) ∧
  ([Status.ok, .clamped, .busy, .badState, .badArg, .badRecord, .noRoom, .protectedSlot, .full, .empty, .aborted, .unknownKind,
    .badLength, .notReady, .memoryAbsent].map Status.code) = List.range 15

/-! ### The request handler (R189, R203) -/

/-- The three checks of the request handler, in order: KIND, body length, part state. Each refusal has an empty body and changes
nothing else. The kinds and their body lengths are those of R203. A STOP frame with the mode of the other row is left to that row, which
alone takes it: the row that meets it changes nothing (log 2). A request row acts on nothing but a frame of its own kind that can be taken,
and UNKNOWN_KIND on nothing but a frame of no kind (log 1). -/
def Obligations.RequestHandlerChecks : Prop :=
  (∀ (s : State) (f : Frame) (rest : List Frame), CanTake s f rest →
    (Kind.ofByte f.kind = none → exec .unknownKind s = .next (s.replied f rest .unknownKind [])) ∧
    ∀ (c : Instr) (k : Kind), requestKind c = some k → Kind.ofByte f.kind = some k →
      (k.lengthOk f.body = false → exec c s = .next (s.replied f rest .badLength [])) ∧
      (k.lengthOk f.body = true → (c = .stopSpill → u1At f.body 1 ≠ 1) → (c = .stopCut → u1At f.body 1 ≠ 0) →
        (s.run = none → k.servedInSetup = false → k ≠ .softReset →
          exec c s = .next (s.replied f rest .notReady [])) ∧
        (s.run = none → k = .softReset → exec c s = .next (s.replied f rest .badState [])) ∧
        (s.run.isSome = true → k = .setup → exec c s = .next (s.replied f rest .badState [])))) ∧
  (∀ (c : Instr) (k : Kind) (s : State), requestKind c = some k →
    (s.link.inbox = [] ∨ 4 ≤ s.link.sendOrder.length + s.link.reserved ∨
      ∃ f rest, s.link.inbox = f :: rest ∧ Kind.ofByte f.kind ≠ some k) →
    exec c s = .next s) ∧
  (∀ s : State, (s.link.inbox = [] ∨ 4 ≤ s.link.sendOrder.length + s.link.reserved ∨
      ∃ f rest k, s.link.inbox = f :: rest ∧ Kind.ofByte f.kind = some k) →
    exec .unknownKind s = .next s) ∧
  (∀ (s : State) (f : Frame) (rest : List Frame) (b : Byte), s.link.inbox = f :: rest → f.kind = 0x23 →
    (f.body = [b, 1] → exec .stopSpill s = .next s) ∧ (f.body = [b, 0] → exec .stopCut s = .next s)) ∧
  (let kinds : List (Nat × Kind) :=
    [(0x01, .identify), (0x02, .partStatus), (0x03, .setup), (0x04, .softReset), (0x05, .poolStatus), (0x10, .store),
     (0x11, .fetch), (0x12, .erase), (0x13, .protect), (0x14, .list), (0x20, .load), (0x21, .unload), (0x22, .start), (0x23, .stop),
     (0x24, .hold), (0x25, .unhold), (0x26, .set), (0x27, .get), (0x28, .instanceStatus), (0x30, .cueAdd), (0x31, .cueClear),
     (0x32, .cueList), (0x33, .go), (0x40, .tempoSet), (0x41, .tempoGet), (0x42, .tapMode), (0x50, .memErrors), (0x51, .lineRead),
     (0x52, .lineWrite), (0x60, .noticeRead), (0x61, .noticeClear), (0x62, .noticeConfig)]
   ∀ b : Byte, Kind.ofByte b = (kinds.find? fun z => z.1 == b.toNat).map Prod.snd) ∧
  ∀ (k : Kind) (body : List Byte), k.lengthOk body = true ↔
    match k with
    | .identify | .partStatus | .softReset | .poolStatus | .cueClear | .cueList | .go | .tempoGet | .noticeRead => body.length = 0
    | .fetch | .erase | .unload | .start | .hold | .unhold | .instanceStatus | .tapMode | .memErrors => body.length = 1
    | .protect | .list | .load | .stop | .tempoSet => body.length = 2
    | .get | .noticeConfig => body.length = 3
    | .setup | .set => body.length = 7
    | .lineRead => body.length = 8
    | .cueAdd => body.length = 9
    | .store => 33 ≤ body.length ∧ body.length ≤ 465
    | .lineWrite => ∃ head count rest, body = head ++ count ++ rest ∧ head.length = 6 ∧ count.length = 2 ∧ rest.length = 3 * beVal count
    | .noticeClear => ∃ n rest, body = n :: rest ∧ rest.length = 20 * n.toNat

/-! ### The part -/

/-- IDENTIFY: the same 15 bytes in both part states: "ZE3224", revision 1, 24 instances, 64 slots, 32 cue entries, 32 NEAR pages,
2 inbox frames, 4 outbox places, largest LEN 1024 (R193, R203). -/
def Obligations.IdentifyNamesThePart : Prop :=
  ∀ (s : State) (f : Frame) (rest : List Frame), CanTake s f rest → f.kind = 0x01 → f.body = [] →
    exec .identify s =
      .next (s.replied f rest .ok [0x5A, 0x45, 0x33, 0x32, 0x32, 0x34, 1, 24, 64, 32, 32, 2, 4, 0x04, 0x00])

/-- PART_STATUS, POOL_STATUS and INSTANCE_STATUS, of an EMPTY instance too, answer with the fields of chapter 11 and change nothing (R21, R92,
R194); the codes of the states and of the stop reasons are those of its table. -/
def Obligations.StatusRepliesReadTheState : Prop :=
  ([InstState.empty, .ready, .waiting, .running, .held, .spilling, .cutting].map InstState.code) = [0, 1, 2, 3, 4, 5, 6] ∧
  ([StopReason.none, .user, .stolen, .limit].map StopReason.code) = [0, 1, 2, 3] ∧
  ∀ (s : State) (f : Frame) (rest : List Frame), CanTake s f rest →
    (f.kind = 0x02 → f.body = [] →
      ∃ record, record.length = 7 ∧
        (∀ r, s.run = some r → record = beBytes 4 r.rate.hz ++ beBytes 2 r.farSize.pages ++ beBytes 1 r.polarity.code) ∧
        (s.run = none → record = [0, 0, 0, 0, 0, 0, 0]) ∧
        exec .partStatus s = .next (s.replied f rest .ok
          (boolByte s.run.isSome ++ record
            ++ u1 (if s.monitor.lock = .locked then 1 else 0) ++ u1 s.monitor.good ++ u1 s.monitor.bad
            ++ ([InstState.empty, .ready, .waiting, .running, .held, .spilling, .cutting].flatMap fun st =>
                 u1 (allInsts.countP fun i => (s.inst i).state = st))
            ++ u1 s.queue.length ++ u1 s.spill.length ++ boolByte s.cue.pendingFlag ++ u1 s.cue.list.length
            ++ boolByte s.access.isSome ++ u1 (s.link.reserved + 1) ++ u1 s.link.sendOrder.length))) ∧
    (∀ r, s.run = some r → f.kind = 0x05 → f.body = [] →
      exec .poolStatus s = .next (s.replied f rest .ok
        (beBytes 2 r.farSize.pages ++ beBytes 2 r.farFree.length ++ beBytes 2 (r.farFree.head?.getD 0xFFFF)
          ++ beBytes 1 r.nearFree.length ++ beBytes 1 (r.nearFree.head?.getD 0xFF)
          ++ beBytes 2 r.rate.budget ++ beBytes 2 r.budgetInUse ++ beBytes 2 (r.rate.budget - r.budgetInUse)
          ++ allInsts.flatMap fun i =>
              beBytes 2 ((s.inst i).pagesIn .far) ++ beBytes 1 ((s.inst i).pagesIn .near) ++ beBytes 1 (s.inst i).cost))) ∧
    ∀ i, s.run.isSome = true → f.kind = 0x28 → f.body = [instByte i] →
      ∃ body, exec .instanceStatus s = .next (s.replied f rest .ok body) ∧
        body.take 3 = [instByte i] ++ u1 (s.inst i).state.code ++ optByte ((s.inst i).slot.map Fin.val) ∧
        (∀ r, s.inst i = Inst.emptyWith r →
          body = [instByte i, 0, 0xFF] ++ List.replicate 16 0 ++ [0xFF, 0xFF] ++ List.replicate 8 0 ++ [0xFF, 0, 0, 0, 0, 0, 0]) ∧
        ((s.inst i).program = none → (s.inst i).running = none →
          body.drop 3 = List.replicate 16 0 ++ optByte (if (s.inst i).state = .waiting then s.queue.idxOf? i else none)
            ++ optByte (if (s.inst i).state = .spilling then s.spill.idxOf? i else none) ++ [0, 0, 0, 0, 0, 0, 0, 0]
            ++ optByte (s.inst i).lastLevel ++ u1 (s.inst i).quietCount ++ u2 (s.inst i).spillWindows
            ++ boolByte (s.inst i).clip ++ u1 (s.inst i).stopReason.code ++ [0]) ∧
        ∀ p, (s.inst i).program = some p → p.name.length = 16 →
          (body.drop 3).take 16 = p.name ∧
          (body.drop 19).take 17 =
            optByte (if (s.inst i).state = .waiting then s.queue.idxOf? i else none)
              ++ optByte (if (s.inst i).state = .spilling then s.spill.idxOf? i else none)
              ++ u2 (((s.inst i).running.map Running.inGain).getD 0) ++ u2 (((s.inst i).running.map Running.outGain).getD 0)
              ++ u1 (s.inst i).cost ++ u2 ((s.inst i).pagesIn .far) ++ u1 ((s.inst i).pagesIn .near)
              ++ optByte (s.inst i).lastLevel ++ u1 (s.inst i).quietCount ++ u2 (s.inst i).spillWindows
              ++ boolByte (s.inst i).clip ++ u1 (s.inst i).stopReason.code ++ u1 p.taps.length ∧
          (∀ r, (s.inst i).running = some r → body.drop 36 = r.taps.flatMap fun t => s2 t.gain ++ u4 t.glide) ∧
          ((s.inst i).running = none → body.drop 36 = p.taps.flatMap fun _ => [0, 0, 0, 0, 0, 0])

/-- SETUP in SETUP: a field outside its domain is BAD_ARG and touches no memory; a sizing check that reads back anything but the two
markers is MEMORY_ABSENT and leaves only the marker words; else the whole record takes effect at its moment, the monitor keeping its state,
counts and mark (R18 to R20, R180, R192). `us` is what the external DRAM does to its words before the read back (log 5) and `d` the ticks
since the last timed event, which a SETUP that is refused leaves to the next one (log 3). -/
def Obligations.SetupBuildsThePools : Prop :=
  ∀ (s : State) (f : Frame) (rest : List Frame) (d : Nat) (us : List Upset), CanTake s f rest → f.kind = 0x03 → f.body.length = 7 →
    s.run = none →
    ((uAt 4 f.body 0 ≠ 48000 ∧ uAt 4 f.body 0 ≠ 96000 ∨
        uAt 2 f.body 4 ≠ 1024 ∧ uAt 2 f.body 4 ≠ 2048 ∧ uAt 2 f.body 4 ≠ 4096 ∨ 1 < u1At f.body 6) →
      exec (.setup ⟨d, us⟩) s = .next (s.replied f rest .badArg [])) ∧
    ∀ (rate : SampleRate) (size : FarSize) (pol : Polarity),
      uAt 4 f.body 0 = rate.hz → uAt 2 f.body 4 = size.pages → u1At f.body 6 = pol.code →
      let a : Nat := (size.pages - 1) * 2048
      let m := ((s.writeDram 0 0x5A5A5A).writeDram a (0xA5A5A5 - 0x1000000)).upsets us
      (m.dramWord 0 ≠ validWord 0x5A5A5A ∨ m.dramWord a ≠ validWord (0xA5A5A5 - 0x1000000) →
        exec (.setup ⟨d, us⟩) s = .next (m.replied f rest .memoryAbsent [])) ∧
      (m.dramWord 0 = validWord 0x5A5A5A → m.dramWord a = validWord (0xA5A5A5 - 0x1000000) →
        exec (.setup ⟨d, us⟩) s =
          .next (State.replied f rest .ok (beBytes 4 rate.hz ++ beBytes 2 size.pages ++ beBytes 1 pol.code ++ beBytes 2 rate.budget)
            { m with
              run := some { rate := rate, farSize := size, polarity := pol, nearFree := List.range 32,
                            farFree := List.range size.pages, nearOwner := List.replicate 32 none,
                            farOwner := List.replicate size.pages none, budgetInUse := 0 },
              link := { m.link with polarity := pol }, tempo := { m.tempo with lastTap := none },
              monitor := { m.monitor with sinceMark := m.monitor.sinceMark.map (· + d),
                                          sinceFrame := m.monitor.sinceFrame + d } }))

/-- SOFT_RESET in RUN: a GO in flight and a line access in flight are answered ABORTED, in this order, ahead of its own reply; the
engine is empty, every notice flag, mask and detail is clear, and the routing, the library, the tempo, the setup record and the group
configurations are kept (R23, R56, R95, R117, R132, R168, R195). A service event still due finds every slot leftover (log 9). -/
def Obligations.SoftResetEmptiesTheEngine : Prop :=
  ∀ (s : State) (f : Frame) (rest : List Frame) (r : Run), CanTake s f rest → f.kind = 0x04 → f.body = [] → s.run = some r →
    let goReply : List Reply :=
      match s.cue.origin with
      | some (.request tag) => [⟨tag, 0xB3, .aborted, [0, 0, 0xFF]⟩]
      | some .pin => []
      | none => []
    let accessReply : List Reply :=
      match s.access with
      | some a => [a.reply .aborted]
      | none => []
    exec .softReset s = .next
      { s with
        run := some { r with nearFree := List.range 32, farFree := List.range r.farSize.pages,
                             nearOwner := List.replicate 32 none, farOwner := List.replicate r.farSize.pages none,
                             budgetInUse := 0 },
        instances := s.instances.map fun x =>
          { state := .empty, slot := none, program := none, routing := x.routing, running := none, lastLevel := none,
            quietCount := 0, spillWindows := 0, clip := false, stopReason := .none, decision := none, releaseDue := false },
        queue := [], spill := [],
        cue := { list := [], fired := [], pendingFlag := false, origin := none, due := false },
        tempo := { s.tempo with intervals := [], lastTap := none }, corrections := [],
        errors := { corrected := 0, lastCorrected := none, uncorrectable := 0, firstUncorr := none, dropped := 0 },
        access := none, serviceDue := s.serviceDue.map fun _ => r.rate.budget,
        notices := { s.notices with
          holdover := false, lockRestored := false, outClip := 0, corrected := none, uncorrectable := none, dropped := none,
          released := 0, stolen := 0, startFailed := 0, admitted := 0, clipped := 0, limit := 0, applied := none,
          tapTempo := none, overrun := none, badFrame := none },
        link := { s.link with inbox := rest, reserved := s.link.reserved - (goReply.length + accessReply.length),
                              sendOrder := s.link.sendOrder ++ goReply ++ accessReply ++ [⟨f.tag, 0x84, .ok, []⟩] } }

/-! ### The preset library -/

/-- STORE in its order of checks: slot, protect flag, record; an accepted record replaces the slot's, byte for byte, and the protect
flag stays (R136, R137, R141). The field index of a BAD_RECORD: the first field at fault, in the order of R135, each field by its check
(R138, R140), with the length judged between the header and the entries and named by the number of fields its counts call for
(R139). An accepted STORE taken after the boundary of a cue whose LOAD entry names the slot is not seen by that entry (R146): the
application event is taken before the request (log 25), given the link's invariant. -/
def Obligations.StoreChecksThenWrites : Prop :=
  (∀ r : List Byte, 32 ≤ r.length → r.length ≤ 464 →
    let nl := u1At r 16
    let nt := u1At r 17
    let b := 9 + 3 * nl
    let c := b + 10 * nt
    let header : Nat → Prop := fun n =>
      match n with
      | 0 => nameWf (r.take 16)
      | 1 => 1 ≤ nl ∧ nl ≤ 8
      | 2 => 1 ≤ nt ∧ nt ≤ 32
      | 3 => u1At r 18 < 128
      | 4 => u1At r 20 < 128
      | 6 => u1At r 24 ≤ 8
      | 7 => 1 ≤ u1At r 25 ∧ u1At r 25 ≤ 15
      | 8 => uAt 2 r 26 ≠ 0
      | _ => True
    let line : Nat → Nat → Prop := fun o k =>
      match k with
      | 0 => u1At r o ≤ 2
      | 1 => 1 ≤ u1At r (o + 1) ∧ u1At r (o + 1) ≤ if u1At r o = 0 then 4 else 128
      | _ => u1At r (o + 2) ≤ 3
    let tap : Nat → Nat → Prop := fun o k =>
      match k with
      | 0 => uAt 2 r (o + 10) / 2 ^ 13 < nl
      | 1 => uAt 4 r (o + 6) / 2 ^ 30 ≤ 1
      | 2 => 256 ≤ uAt 4 r (o + 6) % 2 ^ 26 ∧ uAt 4 r (o + 6) % 2 ^ 26 ≤ 67108352
      | 3 => 1 ≤ uAt 2 r (o + 10) % 2 ^ 9 ∧ uAt 2 r (o + 10) % 2 ^ 9 ≤ 384
      | 4 => uAt 2 r (o + 10) / 2 ^ 11 % 4 ≤ 2
      | 7 => uAt 2 r (o + 4) ≤ 32767
      | 8 => uAt 4 r (o + 6) / 2 ^ 26 % 16 < nl ∨ uAt 4 r (o + 6) / 2 ^ 26 % 16 = 8 ∨ uAt 4 r (o + 6) / 2 ^ 26 % 16 = 9
      | 9 => uAt 2 r (o + 10) / 2 ^ 9 % 4 ≤ 1
      | _ => True
    let lfo : Nat → Nat → Prop := fun o k =>
      match k with
      | 0 => 10 ≤ uAt 2 r o ∧ uAt 2 r o ≤ 20000
      | 1 => u1At r (o + 2) ≤ 1
      | _ => True
    let good : Nat → Prop := fun n =>
      if n < 9 then header n
      else if n < b then line (32 + 4 * ((n - 9) / 3)) ((n - 9) % 3)
      else if n < c then tap (32 + 4 * nl + 12 * ((n - b) / 10)) ((n - b) % 10)
      else lfo (32 + 4 * nl + 12 * nt + 8 * ((n - c) / 3)) ((n - c) % 3)
    let sized : Prop := r.length = 32 + 4 * nl + 12 * nt + 16
    (recordFault r = none ↔ sized ∧ ∀ m < c + 6, good m) ∧
    ∀ n, recordFault r = some n ↔
      (∀ m < n, m < 9 → good m) ∧
        (n < 9 ∧ ¬ good n ∨ ¬ sized ∧ n = c + 6 ∨ sized ∧ 9 ≤ n ∧ n < c + 6 ∧ ¬ good n ∧ ∀ m < n, good m)) ∧
  ∀ (s : State) (f : Frame) (rest : List Frame) (b : Byte) (r : List Byte), CanTake s f rest → f.kind = 0x10 →
    f.body = b :: r → 32 ≤ r.length → r.length ≤ 464 →
    (64 ≤ b.toNat → exec .store s = .next (s.replied f rest .badArg [b])) ∧
    ∀ k, b = slotByte k →
      ((s.libSlot k).guarded = true → exec .store s = .next (s.replied f rest .protectedSlot [b])) ∧
      ((s.libSlot k).guarded = false → ∀ n, recordFault r = some n →
        exec .store s = .next (s.replied f rest .badRecord (b :: beBytes 2 n))) ∧
      ((s.libSlot k).guarded = false → recordFault r = none →
        ∃ p, programOf r = some p ∧
          let seen : Prop := s.cue.due = true ∧ (∃ e ∈ s.cue.fired, e.action = .load ∧ e.slot = b) ∧
            (s.libSlot k).record ≠ some ⟨r, p⟩
          (¬ seen → exec .store s = .next (State.replied f rest .ok [b] (s.setLibSlot k ⟨some ⟨r, p⟩, false⟩))) ∧
          (seen → LinkInv s → ∃ t, exec .cueApplication s = .next t ∧ t.library = s.library ∧
            exec .store s = .next (State.replied f rest .ok [b] (t.setLibSlot k ⟨some ⟨r, p⟩, false⟩))))

/-- A record that passes the checks has the length its counts call for and spells a program within every limit of R134, each field from the
bytes and bits that R204 gives it. -/
def Obligations.PassingRecordIsWithinLimits : Prop :=
  ∀ r : List Byte, 32 ≤ r.length → r.length ≤ 464 → recordFault r = none →
    ∃ p, programOf r = some p ∧ p.wf ∧ r.length = 32 + 4 * p.lines.length + 12 * p.taps.length + 16 ∧
      let u : Nat → Nat → Nat := fun o n => beVal ((r.drop o).take n)
      p.lines.length = u 16 1 ∧ p.taps.length = u 17 1 ∧ p.name = r.take 16 ∧ p.inGain = u 18 2 ∧ p.outGain = u 20 2 ∧
      p.glide = u 22 2 ∧ p.tailFloor = u 24 1 ∧ p.quiet = u 25 1 ∧ p.spillLimit = u 26 2 ∧
      (∀ (j : Nat) (l : LineProg), p.lines[j]? = some l →
        let o := 32 + 4 * j
        [Placement.near, .far, .any][u o 1]? = some l.placement ∧ l.length = u (o + 1) 1 ∧
          [Feed.none, .a, .b, .mid][u (o + 2) 1]? = some l.feed) ∧
      (∀ (k : Nat) (t : TapProg), p.taps[k]? = some t →
        let o := 32 + 4 * p.lines.length + 12 * k
        t.gain = (BitVec.ofNat 16 (u o 2)).toInt ∧ t.depth = u (o + 2) 2 ∧ t.damp = u (o + 4) 2 ∧
          [Source.fixed, .tempo][u (o + 6) 4 / 2 ^ 30]? = some t.source ∧
          ((List.range 8).map Dest.line ++ [.outA, .outB])[u (o + 6) 4 / 2 ^ 26 % 16]? = some t.dest ∧
          t.fixed = u (o + 6) 4 % 2 ^ 26 ∧ t.line = u (o + 10) 2 / 2 ^ 13 ∧
          [LfoSel.none, .lfo0, .lfo1][u (o + 10) 2 / 2 ^ 11 % 4]? = some t.lfo ∧
          [false, true][u (o + 10) 2 / 2 ^ 9 % 4]? = some t.hold ∧ t.ticks = u (o + 10) 2 % 2 ^ 9) ∧
      ∀ (k : Nat) (l : LfoProg), [p.lfo0, p.lfo1][k]? = some l →
        let o := 32 + 4 * p.lines.length + 12 * p.taps.length + 8 * k
        l.rate = u o 2 ∧ [Shape.triangle, .smooth][u (o + 2) 1]? = some l.shape ∧ l.phase = u (o + 3) 2

/-- Every program within the limits of R134 has a record, laid out by R204, that STORE accepts and that LOAD reads back as that program,
in every field of every entry. -/
def Obligations.RecordOfProgramReadsBack : Prop :=
  ∀ p : Program, p.wf →
    p.record.length = 32 + 4 * p.lines.length + 12 * p.taps.length + 16 ∧ recordFault p.record = none ∧
      programOf p.record = some p

/-- FETCH returns the record exactly as the accepted STORE carried it, or EMPTY, whatever the protect flag, and changes no state;
after a STORE that is accepted, a FETCH of that slot returns its record part byte for byte (R142). -/
def Obligations.FetchReturnsTheStoredRecord : Prop :=
  (∀ (s : State) (f : Frame) (rest : List Frame) (k : SlotNo), CanTake s f rest → f.kind = 0x11 → f.body = [slotByte k] →
    (∀ r, (s.libSlot k).record = some r → exec .fetch s = .next (s.replied f rest .ok (slotByte k :: r.bytes))) ∧
    ((s.libSlot k).record = none → exec .fetch s = .next (s.replied f rest .empty [slotByte k]))) ∧
  ∀ (s t : State) (f g : Frame) (rest : List Frame) (k : SlotNo) (r : List Byte), CanTake s f (g :: rest) → f.kind = 0x10 →
    f.body = slotByte k :: r → 32 ≤ r.length → r.length ≤ 464 → recordFault r = none → (s.libSlot k).guarded = false →
    exec .store s = .next t → t.link.sendOrder.length + t.link.reserved < 4 → g.kind = 0x11 → g.body = [slotByte k] →
    r.length = 32 + 4 * u1At r 16 + 12 * u1At r 17 + 16 ∧
    exec .fetch t = .next (t.replied g rest .ok (slotByte k :: r))

/-- ERASE, PROTECT and LIST (R136, R143 to R145). An ERASE that empties a slot after the boundary of a cue whose LOAD entry names that
slot is not seen by that entry (R146): the application event is taken before the request (log 25), given the link's
invariant. -/
def Obligations.EraseProtectAndList : Prop :=
  ∀ (s : State) (f : Frame) (rest : List Frame), CanTake s f rest →
    (∀ b, 64 ≤ b.toNat →
      (f.kind = 0x11 → f.body = [b] → exec .fetch s = .next (s.replied f rest .badArg [b])) ∧
      (f.kind = 0x12 → f.body = [b] → exec .erase s = .next (s.replied f rest .badArg [b])) ∧
      (∀ v, f.kind = 0x13 → f.body = [b, v] → exec .protect s = .next (s.replied f rest .badArg [b])) ∧
      (∀ n, f.kind = 0x14 → f.body = [b, n] → exec .list s = .next (s.replied f rest .badArg []))) ∧
    ∀ k : SlotNo,
      (f.kind = 0x12 → f.body = [slotByte k] →
        ((s.libSlot k).guarded = true → exec .erase s = .next (s.replied f rest .protectedSlot [slotByte k])) ∧
        ((s.libSlot k).guarded = false →
          let seen : Prop := s.cue.due = true ∧ (∃ e ∈ s.cue.fired, e.action = .load ∧ e.slot = slotByte k) ∧
            (s.libSlot k).record ≠ none
          (¬ seen → exec .erase s = .next (State.replied f rest .ok [slotByte k] (s.setLibSlot k ⟨none, false⟩))) ∧
          (seen → LinkInv s → ∃ t, exec .cueApplication s = .next t ∧ t.library = s.library ∧
            exec .erase s = .next (State.replied f rest .ok [slotByte k] (t.setLibSlot k ⟨none, false⟩))))) ∧
      (∀ v, f.kind = 0x13 → f.body = [slotByte k, v] →
        (v = 0 → exec .protect s =
          .next (State.replied f rest .ok [slotByte k, 0] (s.setLibSlot k ⟨(s.libSlot k).record, false⟩))) ∧
        (v = 1 → exec .protect s =
          .next (State.replied f rest .ok [slotByte k, 1] (s.setLibSlot k ⟨(s.libSlot k).record, true⟩))) ∧
        (2 ≤ v.toNat → exec .protect s = .next (s.replied f rest .badArg [slotByte k]))) ∧
      ∀ n, f.kind = 0x14 → f.body = [slotByte k, n] →
        (n = 0 ∨ 32 < n.toNat → exec .list s = .next (s.replied f rest .badArg [])) ∧
        (1 ≤ n.toNat → n.toNat ≤ 32 →
          exec .list s = .next (s.replied f rest .ok
            (u1 (min n.toNat (64 - k.val))
              ++ ((s.library.toList.drop k.val).take (min n.toNat (64 - k.val))).flatMap fun x =>
                  u1 (if x.record.isSome then 1 else 0) ++ boolByte x.guarded
                    ++ ((x.record.map fun r => r.bytes.take 16).getD (List.replicate 16 0)))))

/-! ### Instances -/

/-- The second check of every instance request: an instance number of 24 or more, a library slot of 64 or more, a STOP mode other than
SPILL and CUT, and an identifier, index or value outside its domain are BAD_ARG, whatever the instance's state (R73, R87). That either STOP
row refuses a STOP of an unknown mode is the model's choice (log 2). -/
def Obligations.InstanceRequestsRefuseBadFields : Prop :=
  ∀ (s : State) (f : Frame) (rest : List Frame), CanTake s f rest → s.run.isSome = true →
    (∀ (c : Instr) (k : Kind) (b : Byte), requestKind c = some k →
      k ∈ [Kind.load, .unload, .start, .stop, .hold, .unhold, .set, .get, .instanceStatus] →
      Kind.ofByte f.kind = some k → k.lengthOk f.body = true → byteAt f.body 0 = b → 24 ≤ b.toNat →
      (c = .stopSpill → u1At f.body 1 ≠ 1) → (c = .stopCut → u1At f.body 1 ≠ 0) →
      exec c s = .next (s.replied f rest .badArg [b, 0xFF])) ∧
    ∀ i : InstNo,
      (∀ b, f.kind = 0x20 → f.body = [instByte i, b] → 64 ≤ b.toNat →
        exec .load s = .next (s.repliedInst f rest .badArg i)) ∧
      (∀ m, f.kind = 0x23 → f.body = [instByte i, m] → 2 ≤ m.toNat →
        exec .stopSpill s = .next (s.repliedInst f rest .badArg i) ∧
        exec .stopCut s = .next (s.repliedInst f rest .badArg i)) ∧
      ∀ (d x : Byte) (v : List Byte),
        (f.kind = 0x26 → f.body = instByte i :: d :: x :: v → v.length = 4 →
          (20 ≤ d.toNat ∨ 3 ≤ d.toNat ∧ d.toNat ≤ 9 ∧ 32 ≤ x.toNat ∨ 10 ≤ d.toNat ∧ d.toNat ≤ 12 ∧ 2 ≤ x.toNat ∨
            (d = 4 ∨ d = 11) ∧ 1 < beVal v ∨ d = 7 ∧ 2 < beVal v ∨
            16 ≤ d.toNat ∧ d.toNat ≤ 19 ∧ 31 < beVal v ∧ beVal v ≠ 255) →
          exec .set s = .next (s.repliedInst f rest .badArg i)) ∧
        (f.kind = 0x27 → f.body = [instByte i, d, x] →
          (20 ≤ d.toNat ∨ 3 ≤ d.toNat ∧ d.toNat ≤ 9 ∧ 32 ≤ x.toNat ∨ 10 ≤ d.toNat ∧ d.toNat ≤ 12 ∧ 2 ≤ x.toNat) →
          exec .get s = .next (s.repliedInst f rest .badArg i))

/-- LOAD and UNLOAD in every state (R74 to R76). A LOAD changes the program, the loaded-from slot and the state of one instance; an
UNLOAD of a READY instance keeps its routing alone. -/
def Obligations.LoadAndUnload : Prop :=
  ∀ (s : State) (f : Frame) (rest : List Frame) (i : InstNo), CanTake s f rest → s.run.isSome = true →
    (∀ k, f.kind = 0x20 → f.body = [instByte i, slotByte k] →
      ((s.inst i).state = .empty ∨ (s.inst i).state = .ready →
        (∀ r, (s.libSlot k).record = some r →
          exec .load s = .next (State.repliedInst f rest .ok i
            (s.setInst i { s.inst i with state := .ready, slot := some k, program := some r.program }))) ∧
        ((s.libSlot k).record = none → exec .load s = .next (s.repliedInst f rest .empty i))) ∧
      ((s.inst i).state ≠ .empty → (s.inst i).state ≠ .ready →
        exec .load s = .next (s.repliedInst f rest .busy i))) ∧
    (f.kind = 0x21 → f.body = [instByte i] →
      ((s.inst i).state = .empty → exec .unload s = .next (s.repliedInst f rest .ok i)) ∧
      ((s.inst i).state = .ready →
        exec .unload s = .next (State.repliedInst f rest .ok i (s.setInst i
          { state := .empty, slot := none, program := none, routing := (s.inst i).routing, running := none, lastLevel := none,
            quietCount := 0, spillWindows := 0, clip := false, stopReason := .none, decision := none, releaseDue := false }))) ∧
      ((s.inst i).state ≠ .empty → (s.inst i).state ≠ .ready →
        exec .unload s = .next (s.repliedInst f rest .busy i)))

/-- START in every state (R74, R78, R99). A resume takes a SPILLING instance off the spill list, wherever it stands, and keeps every
running field. A READY instance is admitted at once with an empty queue and a fit against the free counts, refused NO_ROOM with an
empty queue and no fit against the prospective counts, else queued at the tail as WAITING with head service in the same event. A resume
drops a window-end decision that stands (log 11). -/
def Obligations.StartInEveryState : Prop :=
  (∀ (s : State) (f : Frame) (rest : List Frame) (i : InstNo), CanTake s f rest → s.run.isSome = true → f.kind = 0x22 →
    f.body = [instByte i] →
    ((s.inst i).state = .empty ∨ (s.inst i).state = .held → exec .start s = .next (s.repliedInst f rest .badState i)) ∧
    ((s.inst i).state = .waiting ∨ (s.inst i).state = .running → exec .start s = .next (s.repliedInst f rest .ok i)) ∧
    ((s.inst i).state = .cutting → exec .start s = .next (s.repliedInst f rest .busy i)) ∧
    ((s.inst i).state = .spilling →
      exec .start s = .next (State.repliedInst f rest .ok i
        (State.setInst i { s.inst i with state := .running, quietCount := 0, spillWindows := 0, decision := none }
          { s with spill := s.spill.erase i })))) ∧
  ∀ (s : State) (f : Frame) (rest : List Frame) (i : InstNo) (p : Program), CanTake s f rest → s.run.isSome = true →
    f.kind = 0x22 → f.body = [instByte i] → (s.inst i).state = .ready → (s.inst i).program = some p →
    (s.queue = [] → fits p s.freeCounts = true →
      exec .start s = .next (State.repliedInst f rest .ok i (s.admission i))) ∧
    (s.queue = [] → fits p s.freeCounts = false → fits p s.prospectiveCounts = false →
      exec .start s = .next (s.repliedInst f rest .noRoom i)) ∧
    (s.queue ≠ [] ∨ fits p s.freeCounts = false ∧ fits p s.prospectiveCounts = true →
      exec .start s = .next (State.repliedInst f rest .ok i (State.headService
        (State.setInst i { s.inst i with state := .waiting } { s with queue := s.queue ++ [i] }))))

/-- STOP, in both modes, in every state (R74, R79 to R81, R166). A line access in flight on the instance is ended first, its ABORTED reply
ahead of the STOP's own (log 13), and every move drops a window-end decision that stands (log 11). -/
def Obligations.StopMovesTheInstance : Prop :=
  ∀ (s : State) (f : Frame) (rest : List Frame) (i : InstNo), CanTake s f rest → s.run.isSome = true → f.kind = 0x23 →
    let spilling : State → State := fun t =>
      State.setInst i { t.inst i with
        state := .spilling, stopReason := .user, quietCount := 0, spillWindows := 0, decision := none,
        running := (t.inst i).running.map fun r => { r with windowProgress := 0, windowPeak := 0 } }
        { t with spill := t.spill ++ [i] }
    let cutting : State → State := fun t =>
      State.setInst i { t.inst i with state := .cutting, stopReason := .user, decision := none, releaseDue := false }
        { t with spill := t.spill.erase i }
    let dequeued : State := State.setInst i { s.inst i with state := .ready } { s with queue := s.queue.erase i }
    (f.body = [instByte i, 0] →
      ((s.inst i).state = .empty ∨ (s.inst i).state = .ready ∨ (s.inst i).state = .spilling ∨ (s.inst i).state = .cutting →
        exec .stopSpill s = .next (s.repliedInst f rest .ok i)) ∧
      ((s.inst i).state = .waiting →
        exec .stopSpill s = .next (State.repliedInst f rest .ok i
          (if s.queue.head? = some i then dequeued.headService else dequeued))) ∧
      ((s.inst i).state = .running → exec .stopSpill s = .next (State.repliedInst f rest .ok i (spilling s))) ∧
      ((s.inst i).state = .held →
        exec .stopSpill s = .next (State.repliedInst f rest .ok i (spilling (s.abortAccessOf i))))) ∧
    (f.body = [instByte i, 1] →
      ((s.inst i).state = .empty ∨ (s.inst i).state = .ready ∨ (s.inst i).state = .cutting →
        exec .stopCut s = .next (s.repliedInst f rest .ok i)) ∧
      ((s.inst i).state = .waiting →
        exec .stopCut s = .next (State.repliedInst f rest .ok i
          (if s.queue.head? = some i then dequeued.headService else dequeued))) ∧
      ((s.inst i).state = .running ∨ (s.inst i).state = .spilling →
        exec .stopCut s = .next (State.repliedInst f rest .ok i (cutting s))) ∧
      ((s.inst i).state = .held →
        exec .stopCut s = .next (State.repliedInst f rest .ok i (cutting (s.abortAccessOf i)))))

/-- HOLD and UNHOLD in every state (R74, R82, R83), and what becomes of the line access in flight when its instance leaves HELD: it is
answered ABORTED in its reserved place with the words done, ahead of the UNHOLD's own reply (log 13); that of another instance goes on
(R166). -/
def Obligations.HoldUnholdAndTheAccess : Prop :=
  (∀ (s : State) (f : Frame) (rest : List Frame) (i : InstNo), CanTake s f rest → s.run.isSome = true → f.body = [instByte i] →
    (f.kind = 0x24 →
      ((s.inst i).state = .running →
        exec .hold s = .next (State.repliedInst f rest .ok i (s.setInst i { s.inst i with state := .held }))) ∧
      ((s.inst i).state = .held → exec .hold s = .next (s.repliedInst f rest .ok i)) ∧
      ((s.inst i).state ≠ .running → (s.inst i).state ≠ .held →
        exec .hold s = .next (s.repliedInst f rest .badState i))) ∧
    (f.kind = 0x25 →
      ((s.inst i).state = .held →
        exec .unhold s = .next (State.repliedInst f rest .ok i
          ((s.abortAccessOf i).setInst i { s.inst i with state := .running }))) ∧
      ((s.inst i).state = .running → exec .unhold s = .next (s.repliedInst f rest .ok i)) ∧
      ((s.inst i).state ≠ .running → (s.inst i).state ≠ .held →
        exec .unhold s = .next (s.repliedInst f rest .badState i)))) ∧
  ∀ (s : State) (i : InstNo),
    (s.access = none → s.abortAccessOf i = s) ∧
    ∀ a, s.access = some a →
      (a.inst ≠ i → s.abortAccessOf i = s) ∧
      (a.inst = i →
        (a.op = .read → s.abortAccessOf i =
          { s with access := none,
                   link := { s.link with reserved := s.link.reserved - 1,
                                         sendOrder := s.link.sendOrder ++ [⟨a.tag, 0xD1, .aborted,
                                           beBytes 2 a.served ++ beBytes 2 a.bad ++ a.got.flatMap s3⟩] } }) ∧
        ∀ vs, a.op = .write vs → s.abortAccessOf i =
          { s with access := none,
                   link := { s.link with reserved := s.link.reserved - 1,
                                         sendOrder := s.link.sendOrder ++ [⟨a.tag, 0xD2, .aborted, beBytes 2 a.served⟩] } })

/-- SET from its third check onward, for every identifier code of chapter 11 with its index, range and codes by R87: BAD_STATE in EMPTY;
BAD_ARG for a tap index beyond the program; else the value clamped to its range is stored in the one field that the code names and
returned, CLAMPED where it was changed, and nothing else changes but, for LFO_RATE, the increment (R62). GET returns the stored value and
changes nothing (R73, R74, R87, R88, R89, R91). -/
def Obligations.SetAndGet : Prop :=
  ∀ (s : State) (f : Frame) (rest : List Frame) (i : InstNo) (b x : Byte), CanTake s f rest → s.run.isSome = true →
    b.toNat < 20 → (3 ≤ b.toNat ∧ b.toNat ≤ 9 → x.toNat < 32) → (10 ≤ b.toNat ∧ b.toNat ≤ 12 → x.toNat < 2) →
    let ranges : List (Int × Int) :=
      [(0, 32767), (0, 32767), (0, 65535), (-32768, 32767), (0, 1), (256, 67108352), (1, 384), (0, 2), (0, 65535), (0, 32767),
       (10, 20000), (0, 1), (0, 65535), (0, 8), (1, 15), (1, 65535), (0, 255), (0, 255), (0, 255), (0, 255)]
    let k := x.toNat
    let tap : Prop := 3 ≤ b.toNat ∧ b.toNat ≤ 9
    (∀ v lo hi, f.kind = 0x26 → f.body = instByte i :: b :: x :: beBytes 4 (BitVec.ofInt 32 v).toNat → -2147483648 ≤ v →
      v ≤ 2147483647 → ranges[b.toNat]? = some (lo, hi) → (b = 4 ∨ b = 11 → v = 0 ∨ v = 1) → (b = 7 → v = 0 ∨ v = 1 ∨ v = 2) →
      (16 ≤ b.toNat → 0 ≤ v ∧ v ≤ 31 ∨ v = 255) →
      ((s.inst i).state = .empty → exec .set s = .next (s.repliedInst f rest .badState i)) ∧
      ∀ p, (s.inst i).state ≠ .empty → (s.inst i).program = some p →
        (tap → p.taps.length ≤ k → exec .set s = .next (s.repliedInst f rest .badArg i)) ∧
        ((tap → k < p.taps.length) →
          let w := max lo (min hi v)
          let y := s.inst i
          let prog : Program → Inst := fun q => { y with program := some q }
          let onTap : (TapProg → TapProg) → Inst := fun g => prog { p with taps := p.taps.modify k g }
          let onLfo : (LfoProg → LfoProg) → Inst := fun g =>
            prog (if k = 0 then { p with lfo0 := g p.lfo0 } else { p with lfo1 := g p.lfo1 })
          let port : Option PortNo := (List.finRange 32).find? fun q => decide ((q.val : Int) = w)
          let inc : Nat := (2 * (w.toNat * 2 ^ 32) + 1000 * s.clockRate.hz) / (2 * (1000 * s.clockRate.hz))
          let stored : Inst :=
            match b.toNat with
            | 0 => prog { p with inGain := w.toNat }
            | 1 => prog { p with outGain := w.toNat }
            | 2 => prog { p with glide := w.toNat }
            | 3 => onTap fun t => { t with gain := w }
            | 4 => onTap fun t => { t with source := if w = 0 then .fixed else .tempo }
            | 5 => onTap fun t => { t with fixed := w.toNat }
            | 6 => onTap fun t => { t with ticks := w.toNat }
            | 7 => onTap fun t => { t with lfo := if w = 0 then .none else if w = 1 then .lfo0 else .lfo1 }
            | 8 => onTap fun t => { t with depth := w.toNat }
            | 9 => onTap fun t => { t with damp := w.toNat }
            | 10 => { onLfo (fun l => { l with rate := w.toNat }) with
                      running := y.running.map fun r =>
                        if k = 0 then { r with lfo0 := { r.lfo0 with inc := inc } } else { r with lfo1 := { r.lfo1 with inc := inc } } }
            | 11 => onLfo fun l => { l with shape := if w = 0 then .triangle else .smooth }
            | 12 => onLfo fun l => { l with phase := w.toNat }
            | 13 => prog { p with tailFloor := w.toNat }
            | 14 => prog { p with quiet := w.toNat }
            | 15 => prog { p with spillLimit := w.toNat }
            | 16 => { y with routing := { y.routing with inA := port } }
            | 17 => { y with routing := { y.routing with inB := port } }
            | 18 => { y with routing := { y.routing with outA := port } }
            | _ => { y with routing := { y.routing with outB := port } }
          exec .set s = .next (State.replied f rest (if w = v then .ok else .clamped)
            ([instByte i, BitVec.ofNat 8 (s.inst i).state.code] ++ beBytes 4 (BitVec.ofInt 32 w).toNat) (s.setInst i stored)))) ∧
    (f.kind = 0x27 → f.body = [instByte i, b, x] →
      ((s.inst i).state = .empty → exec .get s = .next (s.repliedInst f rest .badState i)) ∧
      ∀ p, (s.inst i).state ≠ .empty → (s.inst i).program = some p →
        (tap → p.taps.length ≤ k → exec .get s = .next (s.repliedInst f rest .badArg i)) ∧
        ∀ v : Int,
          (let ofTap : (TapProg → Int) → Prop := fun g => p.taps[k]?.map g = some v
           let lfo : LfoProg := if k = 0 then p.lfo0 else p.lfo1
           let route : Option PortNo → Int := fun r => (r.map fun q => (q.val : Int)).getD 255
           match b.toNat with
           | 0 => v = p.inGain
           | 1 => v = p.outGain
           | 2 => v = p.glide
           | 3 => ofTap fun t => t.gain
           | 4 => ofTap fun t => if t.source = .fixed then 0 else 1
           | 5 => ofTap fun t => t.fixed
           | 6 => ofTap fun t => t.ticks
           | 7 => ofTap fun t => if t.lfo = .none then 0 else if t.lfo = .lfo0 then 1 else 2
           | 8 => ofTap fun t => t.depth
           | 9 => ofTap fun t => t.damp
           | 10 => v = lfo.rate
           | 11 => v = if lfo.shape = .triangle then 0 else 1
           | 12 => v = lfo.phase
           | 13 => v = p.tailFloor
           | 14 => v = p.quiet
           | 15 => v = p.spillLimit
           | 16 => v = route (s.inst i).routing.inA
           | 17 => v = route (s.inst i).routing.inB
           | 18 => v = route (s.inst i).routing.outA
           | _ => v = route (s.inst i).routing.outB) →
          exec .get s = .next (s.replied f rest .ok
            ([instByte i, BitVec.ofNat 8 (s.inst i).state.code] ++ beBytes 4 (BitVec.ofInt 32 v).toNat)))

/-- The table of R87 with the codes of chapter 11: each identifier's index, range and codes. A value stored by SET reads back, every other stored value stands, no structure field changes, and of the running fields only the
increment of the LFO whose rate was set (R62, R70, R71, R88, R89, R91). -/
def Obligations.StoredValueReadsBack : Prop :=
  (let rows : List (Ident × Int × Int) :=
    [(.inGain, 0, 32767), (.outGain, 0, 32767), (.glide, 0, 65535), (.tapGain, -32768, 32767), (.tapSource, 0, 1),
     (.tapFixed, 256, 67108352), (.tapTicks, 1, 384), (.tapLfo, 0, 2), (.tapDepth, 0, 65535), (.tapDamp, 0, 32767),
     (.lfoRate, 10, 20000), (.lfoShape, 0, 1), (.lfoPhase, 0, 65535), (.tailFloor, 0, 8), (.tailQuiet, 1, 15),
     (.spillLimit, 1, 65535), (.routeInA, 0, 255), (.routeInB, 0, 255), (.routeOutA, 0, 255), (.routeOutB, 0, 255)]
   (∀ b : Byte, Ident.ofCode b = rows[b.toNat]?.map Prod.fst) ∧
   ∀ (n : Nat) (d : Ident) (lo hi : Int), rows[n]? = some (d, lo, hi) →
    d.range = (lo, hi) ∧ (d.ofTap = true ↔ 3 ≤ n ∧ n ≤ 9) ∧ (d.ofLfo = true ↔ 10 ≤ n ∧ n ≤ 12) ∧
    (∀ x : Byte, d.indexOk x = true ↔ (3 ≤ n ∧ n ≤ 9 → x.toNat < 32) ∧ (10 ≤ n ∧ n ≤ 12 → x.toNat < 2)) ∧
    ∀ v : Int, d.valueOk v = true ↔ (n = 4 ∨ n = 11 → v = 0 ∨ v = 1) ∧ (n = 7 → v = 0 ∨ v = 1 ∨ v = 2) ∧
      (16 ≤ n → 0 ≤ v ∧ v ≤ 31 ∨ v = 255)) ∧
  ∀ (x : Inst) (p : Program) (rate : SampleRate) (d : Ident) (k : Nat) (v : Int), x.program = some p →
    (d.ofTap = true → k < p.taps.length) → (d.ofLfo = true → k < 2) → d.range.1 ≤ v → v ≤ d.range.2 → d.valueOk v = true →
    ∃ q, (x.store rate d k v).program = some q ∧
      storedValue d k q (x.store rate d k v).routing = v ∧
      (∀ d' k', (d'.ofLfo = true → k' < 2) → (d' ≠ d ∨ (d.ofTap = true ∨ d.ofLfo = true) ∧ k' ≠ k) →
        storedValue d' k' q (x.store rate d k v).routing = storedValue d' k' p x.routing) ∧
      q.lines = p.lines ∧ q.name = p.name ∧
      q.taps.map (fun t => (t.line, t.dest, t.hold)) = p.taps.map (fun t => (t.line, t.dest, t.hold)) ∧
      (d ≠ .lfoRate → (x.store rate d k v).running = x.running) ∧
      (d = .lfoRate → (x.store rate d k v).running = x.running.map fun r =>
        if k = 0 then { r with lfo0 := { r.lfo0 with inc := lfoIncrement rate v.toNat } }
        else { r with lfo1 := { r.lfo1 with inc := lfoIncrement rate v.toNat } }) ∧
      { x.store rate d k v with program := x.program, routing := x.routing, running := x.running } = x

/-! ### Admission and release -/

/-- The fit test's walk: each line's pool, the sums of the demand by pool, the cost of the FAR lines, and the verdict against the counts
(R14, R97); and the counts it is made against: the free ones, and those with the holdings and costs of the CUTTING instances, or of the
CUTTING and the SPILLING ones, added (R96, R103). -/
def Obligations.FitTestWalksTheLines : Prop :=
  (∀ (s : State) (r : Run), s.run = some r →
    let added : List InstState → (Inst → Nat) → Nat := fun l g =>
      (allInsts.map fun i => if (s.inst i).state ∈ l then g (s.inst i) else 0).sum
    let counts : List InstState → Counts := fun l =>
      { far := r.farFree.length + added l fun x => x.pagesIn .far, near := r.nearFree.length + added l fun x => x.pagesIn .near,
        budget := r.rate.budget - r.budgetInUse + added l Inst.cost }
    s.freeCounts = counts [] ∧ s.enlargedCounts = counts [.cutting] ∧ s.prospectiveCounts = counts [.cutting, .spilling]) ∧
  ∀ (p : Program) (c : Counts),
    let pools := (fitTest p c).1
    let d := (fitTest p c).2
    let sumOf : Pool → Nat → Nat := fun q n => (((p.lines.zip pools).take n).map fun x => if x.2 = q then x.1.length else 0).sum
    pools.length = p.lines.length ∧
    (∀ (j : Nat) (l : LineProg), p.lines[j]? = some l →
      pools[j]? = some (if l.placement = .near then .near
        else if l.placement = .any ∧ l.length ≤ 4 ∧ sumOf .near j + l.length ≤ c.near then .near else .far)) ∧
    d.near = sumOf .near p.lines.length ∧ d.far = sumOf .far p.lines.length ∧
    d.budget = ((List.range p.lines.length).map fun j =>
      if pools[j]? = some .far then 1 + 2 * (p.taps.filter fun t => t.line = j).length else 0).sum ∧
    (fits p c = true ↔ d.far ≤ c.far ∧ d.near ≤ c.near ∧ d.budget ≤ c.budget)

/-- An admission, in one act: each line is granted, in line order, as many pages as its length from the head of its pool's free list,
with their owner entries, W and F 0; the cost joins the budget in use; every running field starts as R30, R33, R58 and R61 give; the
instance is RUNNING with its clip flag clear and its tail monitor variables cleared (R8, R16, R27, R77, R98, R109). -/
def Obligations.AdmissionGrantsAndStarts : Prop :=
  ∀ (s : State) (i : InstNo) (r : Run) (p : Program), PoolInv s → s.run = some r → (s.inst i).program = some p →
    (s.inst i).running = none → fits p s.freeCounts = true →
    let t := fitTest p s.freeCounts
    let target : TapProg → Nat := fun u =>
      match u.source with
      | .fixed => u.fixed
      | .tempo => min ((2 * (r.rate.hz * 32000 * u.ticks) + s.tempo.tempo) / (2 * s.tempo.tempo)) 67108352
    let lfo : LfoProg → LfoRun := fun l =>
      { phase := l.phase * 65536, inc := (2 * (l.rate * 2 ^ 32) + 1000 * r.rate.hz) / (2 * (1000 * r.rate.hz)) }
    ∃ (lines : List LineRun) (near far : List (Option Owner)),
      s.admission i = State.setInst i
        { s.inst i with
          state := .running, clip := false, lastLevel := none, quietCount := 0, spillWindows := 0, decision := none,
          releaseDue := false,
          running := some { lines := lines,
                            taps := p.taps.map fun u => { target := target u, glide := target u, gain := u.gain, heldRead := 0,
                                                          damping := 0 },
                            lfo0 := lfo p.lfo0, lfo1 := lfo p.lfo1, inGain := 0, outGain := p.outGain, cost := t.2.budget,
                            windowProgress := 0, windowPeak := 0 } }
        { s with run := some { r with nearFree := r.nearFree.drop t.2.near, farFree := r.farFree.drop t.2.far,
                                      nearOwner := near, farOwner := far, budgetInUse := r.budgetInUse + t.2.budget } } ∧
      lines.map (fun l => (l.w, l.f, l.pool)) = t.1.map (fun q => (0, 0, q)) ∧
      lines.map (fun l => l.pages.length) = p.lines.map LineProg.length ∧
      (lines.filter fun l => l.pool = .near).flatMap LineRun.pages = r.nearFree.take t.2.near ∧
      (lines.filter fun l => l.pool = .far).flatMap LineRun.pages = r.farFree.take t.2.far ∧
      ∀ q : Nat,
        (∀ (j : Nat) (l : LineRun), lines[j]? = some l → l.pool = .near → q ∈ l.pages → near[q]? = some (some ⟨i, j⟩)) ∧
        (∀ (j : Nat) (l : LineRun), lines[j]? = some l → l.pool = .far → q ∈ l.pages → far[q]? = some (some ⟨i, j⟩)) ∧
        (q ∉ r.nearFree.take t.2.near → near[q]? = r.nearOwner[q]?) ∧
        (q ∉ r.farFree.take t.2.far → far[q]? = r.farOwner[q]?)

/-- Head service head by head (R101 to R105): a head that fits the free counts is admitted with its ADMITTED bit, and the next one is served;
one that does not waits at the first number of steals, oldest tail first, each with reason STOLEN and its STOLEN bit, at which it fits the
counts with every CUTTING holding; only one that fits at none of them is given up, READY with its START_FAILED bit, and the next one is
served. What the whole of it leaves: heads leave the queue in order, nothing else changes state, and the head that remains does not fit the
free counts but fits them with every CUTTING holding. -/
def Obligations.HeadServiceServesTheQueue : Prop :=
  ∀ s : State, InstancesInv s →
    (s.queue = [] → s.headService = s) ∧
    (∀ i rest, s.queue = i :: rest →
      let stolen : Nat → State := fun k => (s.spill.take k).foldl
        (fun t j => State.raise (.stolen j) (State.setInst j
          { t.inst j with state := .cutting, stopReason := .stolen, decision := none, releaseDue := false }
          { t with spill := t.spill.tail })) s
      let givenUp : State → State := fun t =>
        State.raise (.startFailed i) (State.setInst i { t.inst i with state := .ready } { t with queue := rest })
      (s.instFits i s.freeCounts = true →
        s.headService = State.headService (State.raise (.admitted i) (State.admission i { s with queue := rest }))) ∧
      (s.instFits i s.freeCounts = false →
        (∀ k ≤ s.spill.length, (∀ j < k, s.instFits i (stolen j).enlargedCounts = false) →
          s.instFits i (stolen k).enlargedCounts = true → s.headService = stolen k) ∧
        ((∀ k ≤ s.spill.length, s.instFits i (stolen k).enlargedCounts = false) →
          s.headService = (givenUp (stolen s.spill.length)).headService))) ∧
    ∃ m n : Nat,
      s.headService.queue = s.queue.drop m ∧ s.headService.spill = s.spill.drop n ∧
      (∀ i ∈ s.queue.take m, (s.headService.inst i).state = .running ∨ (s.headService.inst i).state = .ready) ∧
      (∀ i ∈ s.spill.take n, (s.headService.inst i).state = .cutting ∧ (s.headService.inst i).stopReason = .stolen) ∧
      (∀ i, i ∉ s.queue.take m → i ∉ s.spill.take n → s.headService.inst i = s.inst i) ∧
      ∀ i rest, s.headService.queue = i :: rest →
        s.headService.instFits i s.headService.freeCounts = false ∧
        s.headService.instFits i s.headService.enlargedCounts = true

/-- RELEASE and TAIL_DECISION: due only where a cut has been reported or a decision stands, void where the instance has left CUTTING or
SPILLING, and otherwise a release or a cut with reason LIMIT (R84, R106, R113). A release returns every page to the tail of its free
list in line and page order, frees their owner entries, gives back the cost, leaves the instance READY with its program, stored
values, last stop reason, clip flag and tail monitor results, sets RELEASED, and runs head service (R9, R16, R84). -/
def Obligations.ReleaseAndTailDecision : Prop :=
  ∀ (s : State) (i : InstNo) (r : Run) (y : Running), PoolInv s → s.run = some r → (s.inst i).running = some y →
    ∃ near far : List (Option Owner),
      (∀ q, near[q]? = if (∃ l ∈ y.lines, l.pool = .near ∧ q ∈ l.pages) then some none else r.nearOwner[q]?) ∧
      (∀ q, far[q]? = if (∃ l ∈ y.lines, l.pool = .far ∧ q ∈ l.pages) then some none else r.farOwner[q]?) ∧
      let released : State := State.headService (State.raise (.released i) (State.setInst i
        { s.inst i with state := .ready, running := none, decision := none, releaseDue := false }
        { s with spill := s.spill.erase i,
                 run := some { r with nearFree := r.nearFree ++ (y.lines.filter fun l => l.pool = .near).flatMap LineRun.pages,
                                      farFree := r.farFree ++ (y.lines.filter fun l => l.pool = .far).flatMap LineRun.pages,
                                      nearOwner := near, farOwner := far, budgetInUse := r.budgetInUse - y.cost } }))
      ((s.inst i).releaseDue = false → exec (.release i) s = .next s) ∧
      ((s.inst i).releaseDue = true → (s.inst i).state ≠ .cutting →
        exec (.release i) s = .next (s.setInst i { s.inst i with releaseDue := false })) ∧
      ((s.inst i).releaseDue = true → (s.inst i).state = .cutting → exec (.release i) s = .next released) ∧
      ((s.inst i).decision = none → exec (.tailDecision i) s = .next s) ∧
      (∀ d, (s.inst i).decision = some d → (s.inst i).state ≠ .spilling →
        exec (.tailDecision i) s = .next (s.setInst i { s.inst i with decision := none })) ∧
      ((s.inst i).decision = some .release → (s.inst i).state = .spilling → exec (.tailDecision i) s = .next released) ∧
      ((s.inst i).decision = some .limit → (s.inst i).state = .spilling →
        exec (.tailDecision i) s = .next (State.raise (.limit i) (State.setInst i
          { s.inst i with state := .cutting, stopReason := .limit, decision := none, releaseDue := false }
          { s with spill := s.spill.erase i })))

/-! ### Cues -/

/-- CUE_ADD in its order of checks: NOT_READY in SETUP, the domains of the fields that the action uses, then a full list, then the entry is appended as
carried, with its index and the new count in the reply (R118, R119). -/
def Obligations.CueAddChecksAndAppends : Prop :=
  ∀ (s : State) (f : Frame) (rest : List Frame) (a i k d x : Byte) (v : List Byte), CanTake s f rest →
    f.kind = 0x30 → f.body = a :: i :: k :: d :: x :: v → v.length = 4 →
    let good : Prop :=
      1 ≤ a.toNat ∧ a.toNat ≤ 7 ∧ i.toNat < 24 ∧ (a = 1 → k.toNat < 64) ∧
      (a = 7 → d.toNat < 20 ∧ (3 ≤ d.toNat → d.toNat ≤ 9 → x.toNat < 32) ∧ (10 ≤ d.toNat → d.toNat ≤ 12 → x.toNat < 2) ∧
        (d = 4 ∨ d = 11 → beVal v ≤ 1) ∧ (d = 7 → beVal v ≤ 2) ∧
        (16 ≤ d.toNat → d.toNat ≤ 19 → beVal v ≤ 31 ∨ beVal v = 255))
    (s.run = none → exec .cueAdd s = .next (s.replied f rest .notReady [])) ∧
    (s.run.isSome = true → ¬ good → exec .cueAdd s = .next (s.replied f rest .badArg [])) ∧
    (s.run.isSome = true → good → 32 ≤ s.cue.list.length → exec .cueAdd s = .next (s.replied f rest .full [])) ∧
    (s.run.isSome = true → good → s.cue.list.length < 32 →
      ∃ e : CueEntry, e.bytes = f.body ∧
        [CueAction.load, .start, .stopSpill, .stopCut, .hold, .unhold, .set][a.toNat - 1]? = some e.action ∧ e.inst.val = i.toNat ∧
        e.slot = k ∧ e.ident = d ∧ e.index = x ∧ e.value = BitVec.ofNat 32 (beVal v) ∧
        exec .cueAdd s = .next (State.replied f rest .ok
          [BitVec.ofNat 8 s.cue.list.length, BitVec.ofNat 8 (s.cue.list.length + 1)]
          { s with cue := { s.cue with list := s.cue.list ++ [e] } }))

/-- CUE_CLEAR, CUE_LIST, GO and the GO pin (R120 to R123): the requests are NOT_READY in SETUP. In RUN GO is refused BUSY while a cue is pending and EMPTY with an empty list; else
the list moves whole into the fired set and the request stays in flight. The pin fires in the same way and is otherwise ignored. -/
def Obligations.CueListClearAndGo : Prop :=
  (∀ (s : State) (f : Frame) (rest : List Frame), CanTake s f rest → s.run = none → f.body = [] →
    (f.kind = 0x31 → exec .cueClear s = .next (s.replied f rest .notReady [])) ∧
    (f.kind = 0x32 → exec .cueList s = .next (s.replied f rest .notReady [])) ∧
    (f.kind = 0x33 → exec .go s = .next (s.replied f rest .notReady []))) ∧
  (∀ (s : State) (f : Frame) (rest : List Frame), CanTake s f rest → s.run.isSome = true → f.body = [] →
    (f.kind = 0x31 →
      exec .cueClear s = .next (State.replied f rest .ok [BitVec.ofNat 8 s.cue.list.length]
        { s with cue := { s.cue with list := [] } })) ∧
    (f.kind = 0x32 →
      exec .cueList s = .next (s.replied f rest .ok
        ([if s.cue.pendingFlag then 1 else 0, BitVec.ofNat 8 s.cue.fired.length, BitVec.ofNat 8 s.cue.list.length]
          ++ s.cue.list.flatMap CueEntry.bytes))) ∧
    (f.kind = 0x33 →
      (s.cue.pendingFlag = true → exec .go s = .next (s.replied f rest .busy [])) ∧
      (s.cue.pendingFlag = false → s.cue.list = [] → exec .go s = .next (s.replied f rest .empty [])) ∧
      (s.cue.pendingFlag = false → s.cue.list ≠ [] →
        exec .go s = .next (State.takenInFlight rest
          { s with cue := { list := [], fired := s.cue.list, pendingFlag := true, origin := some (.request f.tag),
                            due := false } })))) ∧
  ∀ s : State,
    (s.run.isSome = true → s.resetPin = false → s.cue.pendingFlag = false → s.cue.list ≠ [] →
      exec .goPin s =
        .next { s with cue := { list := [], fired := s.cue.list, pendingFlag := true, origin := some .pin, due := false } }) ∧
    (s.run = none ∨ s.resetPin = true ∨ s.cue.pendingFlag = true ∨ s.cue.list = [] → exec .goPin s = .next s)

/-- The application event applies the fired set in order: an entry whose outcome is not OK or CLAMPED is skipped and changes nothing; every
entry is counted once; then the fired set, the flag and the origin are cleared, a GO request is answered in its reserved place, and
APPLIED is set with the counts (R125 to R127, R129). Before the boundary the event is not due (log 1). The entries read the
state, the library with it, as it stands when the event is taken (R126, R130). -/
def Obligations.ApplicationAppliesTheFiredSet : Prop :=
  (∀ s : State,
    (s.cue.due = false → exec .cueApplication s = .next s) ∧
    (s.cue.due = true →
      let o := applyEntries 0 s.cue.fired ⟨0, 0, none⟩ s
      exec .cueApplication s = .next (State.raise (.applied o.1)
        { o.2 with
          cue := { s.cue with fired := [], pendingFlag := false, origin := none, due := false },
          link :=
            match s.cue.origin with
            | some (.request tag) =>
              { o.2.link with
                reserved := o.2.link.reserved - 1,
                sendOrder := o.2.link.sendOrder ++ [⟨tag, 0xB3, .ok,
                  [BitVec.ofNat 8 o.1.applied, BitVec.ofNat 8 o.1.skipped, BitVec.ofNat 8 (o.1.first.getD 0xFF)]⟩] }
            | some .pin => o.2.link
            | none => o.2.link }))) ∧
  (∀ (k : Nat) (e : CueEntry) (es : List CueEntry) (c : CueCounts) (s : State),
    let o := applyEntry e s
    (o.1 = .ok ∨ o.1 = .clamped → applyEntries k (e :: es) c s = applyEntries (k + 1) es { c with applied := c.applied + 1 } o.2) ∧
    (o.1 ≠ .ok → o.1 ≠ .clamped → applyEntries k (e :: es) c s =
      applyEntries (k + 1) es { c with skipped := c.skipped + 1, first := some (c.first.getD k) } s)) ∧
  ∀ (es : List CueEntry) (s : State),
    let o := applyEntries 0 es ⟨0, 0, none⟩ s
    o.1.applied + o.1.skipped = es.length ∧ (o.1.first = none ↔ o.1.skipped = 0) ∧ (∀ k, o.1.first = some k → k < es.length) ∧
      (o.1.applied = 0 → o.2 = s)

/-- An entry is applied exactly as its instance request would be at that moment: with the same status and the same state after it (R126,
R128). -/
def Obligations.CueEntriesActAsRequests : Prop :=
  ∀ (s : State) (f : Frame) (rest : List Frame) (e : CueEntry) (c : Instr), CanTake s f rest → s.run.isSome = true →
    e.domainOk = true →
    (match e.action with
     | .load => c = .load ∧ f.kind = 0x20 ∧ f.body = [instByte e.inst, e.slot]
     | .start => c = .start ∧ f.kind = 0x22 ∧ f.body = [instByte e.inst]
     | .stopSpill => c = .stopSpill ∧ f.kind = 0x23 ∧ f.body = [instByte e.inst, 0]
     | .stopCut => c = .stopCut ∧ f.kind = 0x23 ∧ f.body = [instByte e.inst, 1]
     | .hold => c = .hold ∧ f.kind = 0x24 ∧ f.body = [instByte e.inst]
     | .unhold => c = .unhold ∧ f.kind = 0x25 ∧ f.body = [instByte e.inst]
     | .set => c = .set ∧ f.kind = 0x26 ∧ f.body = instByte e.inst :: e.ident :: e.index :: beBytes 4 e.value.toNat) →
    ∃ body, exec c s =
      .next ((applyEntry e (s.takenInFlight rest)).2.answer f (applyEntry e (s.takenInFlight rest)).1 body)

/-! ### Tempo -/

/-- TEMPO_SET, TEMPO_GET and TAP_MODE, in SETUP as in RUN (R50 to R52). -/
def Obligations.TempoRequests : Prop :=
  ∀ (s : State) (f : Frame) (rest : List Frame), CanTake s f rest →
    (∀ a b : Byte, f.kind = 0x40 → f.body = [a, b] →
      let v := a.toNat * 256 + b.toNat
      let w := max 3000 (min 30000 v)
      exec .tempoSet s = .next (State.replied f rest (if 3000 ≤ v ∧ v ≤ 30000 then .ok else .clamped) (beBytes 2 w)
        { s with tempo := { s.tempo with tempo := w } })) ∧
    (f.kind = 0x41 → f.body = [] → s.tempo.intervals.length ≤ 4 →
      exec .tempoGet s = .next (s.replied f rest .ok
        (beBytes 2 s.tempo.tempo ++ boolByte s.tempo.tapMode ++ [BitVec.ofNat 8 s.tempo.intervals.length]
          ++ s.tempo.intervals.flatMap (beBytes 4) ++ List.replicate (4 * (4 - s.tempo.intervals.length)) 0
          ++ boolByte s.tempo.lastTap.isSome ++ beBytes 4 (s.tempo.lastTap.getD 0)))) ∧
    (∀ m : Byte, f.kind = 0x42 → f.body = [m] →
      (2 ≤ m.toNat → exec .tapMode s = .next (s.replied f rest .badArg [])) ∧
      (m = 0 → s.tempo.tapMode = false → exec .tapMode s = .next (s.replied f rest .ok [0])) ∧
      (m = 1 → s.tempo.tapMode = true → exec .tapMode s = .next (s.replied f rest .ok [1])) ∧
      (m = 0 → s.tempo.tapMode = true → exec .tapMode s = .next (State.replied f rest .ok [0]
        { s with tempo := { s.tempo with tapMode := false, intervals := [], lastTap := none } })) ∧
      (m = 1 → s.tempo.tapMode = false → exec .tapMode s = .next (State.replied f rest .ok [1]
        { s with tempo := { s.tempo with tapMode := true, intervals := [], lastTap := none } })))

/-- A TAP edge, tested in the order of R54 and taken into the interval list by R55; ignored in SETUP, under RESET and with the tap mode OFF
(R52, R53). The tempo of intervals in range lies from 3000 to 30000 before its clamp (R55). -/
def Obligations.TapEdgeFindsTheTempo : Prop :=
  (∀ s : State, s.run = none ∨ s.resetPin = true ∨ s.tempo.tapMode = false → exec .tapEdge s = .next s) ∧
  (∀ (s : State) (r : Run), s.run = some r → s.resetPin = false → s.tempo.tapMode = true →
    (s.tempo.lastTap = none → exec .tapEdge s = .next { s with tempo := { s.tempo with lastTap := some 0 } }) ∧
    ∀ n, s.tempo.lastTap = some n →
      (n < r.rate.hz / 25 → exec .tapEdge s = .next s) ∧
      (r.rate.hz / 25 ≤ n → (n < r.rate.hz / 5 ∨ 2 * r.rate.hz < n) →
        exec .tapEdge s = .next { s with tempo := { s.tempo with intervals := [], lastTap := some 0 } }) ∧
      (r.rate.hz / 5 ≤ n → n ≤ 2 * r.rate.hz →
        let far : Prop := 0 < s.tempo.intervals.length ∧
          s.tempo.intervals.sum < ((n : Int) * s.tempo.intervals.length - s.tempo.intervals.sum).natAbs * 4
        ∃ l : List Nat,
          (far → l = [n]) ∧
          (¬ far → s.tempo.intervals.length < 4 → l = s.tempo.intervals ++ [n]) ∧
          (¬ far → s.tempo.intervals.length = 4 → l = s.tempo.intervals.tail ++ [n]) ∧
          (s.tempo.intervals.length ≤ 4 →
            let t := max 3000 (min 30000 ((2 * (6000 * r.rate.hz * l.length) + l.sum) / (2 * l.sum)))
            exec .tapEdge s = .next (State.raise (.tapTempo t)
              { s with tempo := { s.tempo with tempo := t, intervals := l, lastTap := some 0 } })))) ∧
  ∀ (rate : SampleRate) (l : List Nat), l ≠ [] → l.length ≤ 4 → (∀ n ∈ l, rate.hz / 5 ≤ n ∧ n ≤ 2 * rate.hz) →
    3000 ≤ (2 * (6000 * rate.hz * l.length) + l.sum) / (2 * l.sum) ∧
      (2 * (6000 * rate.hz * l.length) + l.sum) / (2 * l.sum) ≤ 30000

/-! ### What changes what -/

/-- No command changes the queue of commands (the model's own field). The library changes by STORE, ERASE, PROTECT and power-up alone; the
delay memories by frame starts, the service event, SETUP and power-up alone; the notice configurations by NOTICE_CONFIG and the resets
alone, among them one that falls within a frame start (R133, R146, R149, R197; log 23). -/
def Obligations.OnlyTheseCommandsChangeIt : Prop :=
  ∀ (c : Instr) (s t : State), exec c s = .next t →
    t.pending = s.pending ∧
    (c ≠ .store → c ≠ .erase → c ≠ .protect → c ≠ .powerUp → t.library = s.library) ∧
    (c ≠ .powerUp → t.powerUps = s.powerUps) ∧
    (c ≠ .powerUp → (∀ e, c ≠ .setup e) → (∀ us, c ≠ .serviceEvent us) → (∀ d lanes e, c ≠ .afsEdge d lanes e) →
      (∀ e, c ≠ .edgeWatchExpiry e) → (∀ e, c ≠ .internalFrameTimer e) → t.near = s.near ∧ t.dram = s.dram) ∧
    (c ≠ .noticeConfig → c ≠ .powerUp → c ≠ .resetPinAssert → (∀ d lanes e, c = .afsEdge d lanes e → e.cut = none) →
      (∀ e, c = .edgeWatchExpiry e ∨ c = .internalFrameTimer e → e.cut = none) →
      ∀ g, t.notices.config g = s.notices.config g)

/-! ### Memory service -/

/-- The check code: code bit j is the exclusive OR of the sample bits whose set holds j. A word as written is CLEAN; one bit inverted, of the
sample or of the code, gives CORRECTED with the sample last written; two bits inverted give UNCORRECTABLE (R149, R150). -/
def Obligations.CodeCorrectsOneDetectsTwo : Prop :=
  ∀ x : BitVec 24,
    let sets : List (List Nat) :=
      [[0, 1, 2], [0, 1, 3], [0, 1, 4], [0, 1, 5], [0, 2, 3], [0, 2, 4], [0, 2, 5], [0, 3, 4], [0, 3, 5], [0, 4, 5],
       [1, 2, 3], [1, 2, 4], [1, 2, 5], [1, 3, 4], [1, 3, 5], [1, 4, 5], [2, 3, 4], [2, 3, 5], [2, 4, 5], [3, 4, 5],
       [0, 1, 2, 3, 4], [0, 1, 2, 3, 5], [0, 1, 2, 4, 5], [0, 1, 3, 4, 5]]
    (∀ j < 6, (checkCode x).getLsbD j =
      decide (((List.range 24).countP fun b => x.getLsbD b && (sets.getD b []).contains j) % 2 = 1)) ∧
    (∀ w : DramWord,
      let y := w.code ^^^ checkCode w.sample
      (y = 0 → checkWord w = .clean w.sample.toInt) ∧
      (∀ j < 6, y = BitVec.ofNat 6 (2 ^ j) → checkWord w = .corrected w.sample.toInt) ∧
      (∀ b < 24, (∀ j < 6, y.getLsbD j = (sets.getD b []).contains j) →
        checkWord w = .corrected (w.sample ^^^ BitVec.ofNat 24 (2 ^ b)).toInt) ∧
      (y ≠ 0 → (∀ j < 6, y ≠ BitVec.ofNat 6 (2 ^ j)) →
        (∀ b < 24, ∃ j < 6, y.getLsbD j ≠ (sets.getD b []).contains j) → checkWord w = .uncorrectable)) ∧
    checkWord ⟨x, checkCode x⟩ = .clean x.toInt ∧
    (∀ b < 24, checkWord ⟨x ^^^ BitVec.ofNat 24 (2 ^ b), checkCode x⟩ = .corrected x.toInt) ∧
    (∀ j < 6, checkWord ⟨x, checkCode x ^^^ BitVec.ofNat 6 (2 ^ j)⟩ = .corrected x.toInt) ∧
    (∀ a b, a < b → b < 24 →
      checkWord ⟨x ^^^ BitVec.ofNat 24 (2 ^ a) ^^^ BitVec.ofNat 24 (2 ^ b), checkCode x⟩ = .uncorrectable) ∧
    (∀ a j, a < 24 → j < 6 →
      checkWord ⟨x ^^^ BitVec.ofNat 24 (2 ^ a), checkCode x ^^^ BitVec.ofNat 6 (2 ^ j)⟩ = .uncorrectable) ∧
    ∀ j k, j < k → k < 6 →
      checkWord ⟨x, checkCode x ^^^ BitVec.ofNat 6 (2 ^ j) ^^^ BitVec.ofNat 6 (2 ^ k)⟩ = .uncorrectable

/-- The two words of a tap on a FAR line: the read is formed where neither is UNCORRECTABLE; each CORRECTED and each UNCORRECTABLE word is
counted, located with the owner of its page, and raised, s0 before s1; write-backs are offered only where neither is UNCORRECTABLE. With n
at the fill count only s0 is fetched and the pair is judged by it. A sample beyond the fill count is 0 and is not fetched. The read of a
NEAR line is formed from the words as they stand, which are not checked (R2, R35, R36, R151, R152, R154, R156, R157). Position p of a line lies
in page p / 2048 of its list, at offset p mod 2048 (R11), and the position n samples behind W is (W − n) mod L (R12). -/
def Obligations.TapPairIsJudged : Prop :=
  let located : Nat → State → Location := fun a s =>
    { page := a / 2048, offset := a % 2048, owner := s.run.bind fun r => (r.farOwner[a / 2048]?).getD none }
  let counted : ReadOutcome → Nat → State → State := fun z a s =>
    match z with
    | .clean _ => s
    | .corrected _ => State.raise (.corrected (located a s))
        { s with errors := { s.errors with corrected := min (s.errors.corrected + 1) 65535, lastCorrected := some (located a s) } }
    | .uncorrectable => State.raise (.uncorrectable (located a s))
        { s with errors := { s.errors with uncorrectable := min (s.errors.uncorrectable + 1) 65535,
                                           firstUncorr := some (s.errors.firstUncorr.getD (located a s)) } }
  (∀ (l : LineRun) (d : Nat) (s : State), l.pool = .far → d / 256 + 1 ≤ l.f → s.errors.corrected ≤ 65535 →
    s.errors.uncorrectable ≤ 65535 →
    let a := translate l.pages (posBack l.w (d / 256) l.len)
    let b := translate l.pages (posBack l.w (d / 256 + 1) l.len)
    let x := checkWord (s.dramWord a)
    let y := checkWord (s.dramWord b)
    let t := tapService l d s
    let u := counted y b (counted x a s)
    (x ≠ .uncorrectable → y ≠ .uncorrectable → ∃ v w, x.sample = some v ∧ y.sample = some w ∧
      tapRead l d s = some (interpolate v w (d % 256))) ∧
    (x = .uncorrectable ∨ y = .uncorrectable → tapRead l d s = none ∧ t = u ∧ t.corrections = s.corrections) ∧
    (∀ v w, x = .clean v → y = .clean w → t = s) ∧
    (∀ v w, x = .corrected v → y = .clean w → t = u.offer a v) ∧
    (∀ v w, x = .clean v → y = .corrected w → t = u.offer b w) ∧
    (∀ v w, x = .corrected v → y = .corrected w → t = (u.offer a v).offer b w) ∧
    t.errors.corrected = min 65535 (s.errors.corrected + ([x, y].countP fun z => z matches .corrected _)) ∧
    t.errors.uncorrectable = min 65535 (s.errors.uncorrectable + ([x, y].countP fun z => z matches .uncorrectable)) ∧
    t.near = s.near ∧ t.dram = s.dram) ∧
  (∀ (l : LineRun) (d : Nat) (s : State), l.pool = .far → d / 256 = l.f →
    let a := translate l.pages (posBack l.w (d / 256) l.len)
    let x := checkWord (s.dramWord a)
    (∀ v, x = .clean v → tapRead l d s = some (interpolate v 0 (d % 256)) ∧ tapService l d s = s) ∧
    (∀ v, x = .corrected v → tapRead l d s = some (interpolate v 0 (d % 256)) ∧
      tapService l d s = (counted x a s).offer a v) ∧
    (x = .uncorrectable → tapRead l d s = none ∧ tapService l d s = counted x a s)) ∧
  (∀ (l : LineRun) (d : Nat) (s : State), l.f < d / 256 → tapRead l d s = some 0 ∧ tapService l d s = s) ∧
  (∀ (l : LineRun) (d : Nat) (s : State), l.pool = .near →
    let word : Nat → Int := fun n => if l.f < n then 0 else (s.nearWord (translate l.pages (posBack l.w n l.len))).toInt
    tapRead l d s = some ((word (d / 256) * (256 - ((d % 256 : Nat) : Int)) + word (d / 256 + 1) * ((d % 256 : Nat) : Int) + 128) / 256) ∧
      tapService l d s = s) ∧
  (∀ (pages : List Nat) (p q : Nat), pages[p / 2048]? = some q → translate pages p = q * 2048 + p % 2048) ∧
  (∀ (l : LineRun) (n : Nat), l.len = l.pages.length * 2048 ∧
    posBack l.w n l.len = (((l.w : Int) - (n : Int)) % (l.len : Int)).toNat) ∧
  ∀ (a : Nat) (v : Int) (s : State),
    (a ∈ s.corrections.map WriteBack.addr → s.offer a v = s) ∧
    (a ∉ s.corrections.map WriteBack.addr → s.corrections.length < 8 →
      s.offer a v = { s with corrections := s.corrections ++ [⟨a, v⟩] }) ∧
    (a ∉ s.corrections.map WriteBack.addr → 8 ≤ s.corrections.length →
      s.offer a v = State.raise (.dropped a) { s with errors := { s.errors with dropped := min (s.errors.dropped + 1) 65535 } })

/-- MEM_ERRORS: the record and the queue length, and with CLEAR the record emptied after its values are taken; any other code is BAD_ARG,
and in SETUP the request is NOT_READY (R158). A location without an owner, which no run makes, is written 0xFF 0xFF (log 21). -/
def Obligations.MemErrorsReadsTheRecord : Prop :=
  ∀ (s : State) (f : Frame) (rest : List Frame) (m : Byte), CanTake s f rest → f.kind = 0x50 → f.body = [m] →
    let place : Option Location → List Byte := fun l =>
      match l with
      | some l => 1 :: (beBytes 2 l.page ++ beBytes 2 l.offset ++
          match l.owner with
          | some o => [instByte o.inst, BitVec.ofNat 8 o.line]
          | none => [0xFF, 0xFF])
      | none => [0, 0, 0, 0, 0, 0, 0]
    let body := beBytes 2 s.errors.corrected ++ place s.errors.lastCorrected ++ beBytes 2 s.errors.uncorrectable
      ++ place s.errors.firstUncorr ++ beBytes 2 s.errors.dropped ++ [BitVec.ofNat 8 s.corrections.length]
    (s.run = none → exec .memErrors s = .next (s.replied f rest .notReady [])) ∧
    (s.run.isSome = true → m = 0 → exec .memErrors s = .next (s.replied f rest .ok body)) ∧
    (s.run.isSome = true → m = 1 → exec .memErrors s = .next (State.replied f rest .ok body
      { s with errors := { corrected := 0, lastCorrected := none, uncorrectable := 0, firstUncorr := none, dropped := 0 } })) ∧
    (s.run.isSome = true → 2 ≤ m.toNat → exec .memErrors s = .next (s.replied f rest .badArg []))

/-- LINE_READ and LINE_WRITE, in the order of R161: NOT_READY in SETUP, fields, HELD, the line and what it holds, an access in flight; else the access is in
flight with the fixed positions of R162, word n at (W − offset − n) mod L, and its outbox place stays reserved. -/
def Obligations.LineAccessIsRefusedOrAccepted : Prop :=
  ∀ (s : State) (f : Frame) (rest : List Frame) (b ln : Byte) (offset count : Nat) (vs : List Int) (c : Instr),
    CanTake s f rest → offset < 2 ^ 32 → count < 2 ^ 16 →
    (c = .lineRead ∧ f.kind = 0x51 ∧ f.body = [b, ln] ++ beBytes 4 offset ++ beBytes 2 count ∨
      c = .lineWrite ∧ f.kind = 0x52 ∧ vs.length = count ∧ (∀ v ∈ vs, sampleOk v) ∧
        f.body = [b, ln] ++ beBytes 4 offset ++ beBytes 2 count ++ vs.flatMap s3) →
    (s.run = none → exec c s = .next (s.replied f rest .notReady [])) ∧
    (s.run.isSome = true → 24 ≤ b.toNat ∨ 7 < ln.toNat ∨ offset = 0 ∨ count = 0 ∨ 256 < count →
      exec c s = .next (s.replied f rest .badArg [])) ∧
    ∀ i : InstNo, b = instByte i → s.run.isSome = true → ln.toNat ≤ 7 → 1 ≤ offset → 1 ≤ count → count ≤ 256 →
      ((s.inst i).state ≠ .held → exec c s = .next (s.replied f rest .badState [])) ∧
      ∀ y, (s.inst i).state = .held → (s.inst i).running = some y →
        (y.lines.length ≤ ln.toNat → exec c s = .next (s.replied f rest .badArg [])) ∧
        ∀ l, y.lines[ln.toNat]? = some l →
          (min l.f (l.len - 1) < offset + count - 1 → exec c s = .next (s.replied f rest .badArg [])) ∧
          (offset + count - 1 ≤ min l.f (l.len - 1) →
            (s.access.isSome = true → exec c s = .next (s.replied f rest .busy [])) ∧
            (s.access = none →
              let accepted : LineAccess :=
                { tag := f.tag, op := if c = .lineRead then .read else .write vs, inst := i, line := ln.toNat, pool := l.pool,
                  positions := (List.range count).map fun n =>
                    (((l.w : Int) - ((offset : Int) + (n : Int))) % (l.len : Int)).toNat,
                  served := 0, got := [], bad := 0, frameSeen := false }
              exec c s = .next (State.takenInFlight rest { s with access := some accepted })))

/-- The service event spends its slots in order: write-backs first, oldest first, each with a fresh code, also where a FAR access waits
behind them, then the words of that access, one a slot. A LINE_WRITE word is written with a fresh code and no other word changes; a LINE_READ word is checked, counted, located and raised,
a CORRECTED one queued for the next slot, and an UNCORRECTABLE one gives 0. A NEAR access of a frame that has started is served whole
without a slot, read or written; before that it waits (log 10). An access whose last word is served is answered OK in its reserved place (R159,
R160, R163 to R165). Where none is due nothing happens (log 1). `us` are the bits the DRAM has inverted (log 5). -/
def Obligations.ServiceEventSpendsItsSlots : Prop :=
  ∀ (s : State) (us : List Upset), s.wordsExist = true →
    (s.serviceDue = none → exec (.serviceEvent us) s = .next s) ∧
    ∀ n, s.serviceDue = some n → ServiceInv s →
      (s.access = none ∨ (∃ a, s.access = some a ∧ a.pool = .near ∧ a.frameSeen = false) → ∃ t, exec (.serviceEvent us) s = .next t ∧
        t = { s with serviceDue := none, corrections := s.corrections.drop n, dram := t.dram } ∧
        (∀ e ∈ s.corrections.take n, t.dramWord e.addr = validWord e.sample) ∧
        ∀ a, a ∉ (s.corrections.take n).map WriteBack.addr → t.dramWord a = (s.upsets us).dramWord a) ∧
      (∀ a, s.access = some a → a.pool = .far → n = 0 →
        exec (.serviceEvent us) s = .next { s.upsets us with serviceDue := none }) ∧
      (∀ a e es k, s.access = some a → a.pool = .far → s.corrections = e :: es → n = k + 1 →
        let m := s.upsets us
        exec (.serviceEvent us) s = exec (.serviceEvent [])
          { m with dram := (m.writeDram e.addr e.sample).dram, corrections := es, serviceDue := some k } ∧
        (m.writeDram e.addr e.sample).dramWord e.addr = validWord e.sample ∧
        ∀ q, q ≠ e.addr → (m.writeDram e.addr e.sample).dramWord q = m.dramWord q) ∧
      (∀ a y l k, s.access = some a → a.pool = .far → a.op = .read → s.corrections = [] → n = k + 1 →
        a.served < a.positions.length → (s.inst a.inst).running = some y → y.lines[a.line]? = some l →
        let m := s.upsets us
        let q := translate l.pages (a.positions.getD a.served 0)
        let located : Location :=
          { page := q / 2048, offset := q % 2048, owner := s.run.bind fun r => (r.farOwner[q / 2048]?).getD none }
        let served : Int → Nat → LineAccess := fun v bad =>
          { a with served := a.served + 1, got := a.got ++ [v], bad := a.bad + bad }
        let rest : LineAccess → State → Prop := fun b t =>
          (b.served < a.positions.length →
            exec (.serviceEvent us) s = exec (.serviceEvent []) { t with access := some b, serviceDue := some k }) ∧
          (b.served = a.positions.length → exec (.serviceEvent us) s = exec (.serviceEvent [])
            { t with
              access := none, serviceDue := some k,
              link := { s.link with
                reserved := s.link.reserved - 1,
                sendOrder := s.link.sendOrder ++ [⟨a.tag, 0xD1, .ok,
                  beBytes 2 b.served ++ beBytes 2 b.bad ++ b.got.flatMap s3⟩] } })
        match checkWord (m.dramWord q) with
        | .clean v => rest (served v 0) m
        | .corrected v => rest (served v 0) (State.raise (.corrected located)
            { m with corrections := [⟨q, v⟩],
                     errors := { s.errors with corrected := min (s.errors.corrected + 1) 65535, lastCorrected := some located } })
        | .uncorrectable => rest (served 0 1) (State.raise (.uncorrectable located)
            { m with errors := { s.errors with uncorrectable := min (s.errors.uncorrectable + 1) 65535,
                                               firstUncorr := some (s.errors.firstUncorr.getD located) } })) ∧
      (∀ a vs, s.access = some a → a.pool = .far → a.op = .write vs → s.corrections.length ≤ n →
        ∃ t, exec (.serviceEvent us) s = .next t ∧ t.corrections = [] ∧ t.serviceDue = none ∧ t.instances = s.instances ∧
          t.near = s.near ∧ t.errors = s.errors ∧
          (∀ y l, (s.inst a.inst).running = some y → y.lines[a.line]? = some l →
            let place : Nat → Nat := fun j => translate l.pages (a.positions.getD j 0)
            let words : List Nat := (List.range a.positions.length).filter fun j =>
              decide (a.served ≤ j ∧ j < a.served + (n - s.corrections.length))
            (words.map place).Nodup →
              (∀ j ∈ words, t.dramWord (place j) = validWord (vs.getD j 0)) ∧
              (∀ e ∈ s.corrections, e.addr ∉ words.map place → t.dramWord e.addr = validWord e.sample) ∧
              ∀ q, q ∉ words.map place → q ∉ s.corrections.map WriteBack.addr → t.dramWord q = (s.upsets us).dramWord q) ∧
          (a.served + (n - s.corrections.length) < a.positions.length →
            t.link = s.link ∧ t.access = some { a with served := a.served + (n - s.corrections.length) }) ∧
          (a.served < a.positions.length → a.positions.length ≤ a.served + (n - s.corrections.length) →
            t.access = none ∧
            t.link = { s.link with reserved := s.link.reserved - 1,
                                   sendOrder := s.link.sendOrder ++ [⟨a.tag, 0xD2, .ok, beBytes 2 a.positions.length⟩] })) ∧
      ∀ a y l, s.access = some a → a.pool = .near → a.frameSeen = true → a.served < a.positions.length →
        (s.inst a.inst).running = some y → y.lines[a.line]? = some l →
        let place : Nat → Nat := fun j => translate l.pages (a.positions.getD j 0)
        let words : List Nat := (List.range a.positions.length).filter fun j => decide (a.served ≤ j)
        ∃ t, exec (.serviceEvent us) s = .next t ∧ t.access = none ∧ t.serviceDue = none ∧ t.corrections = s.corrections.drop n ∧
          t.errors = s.errors ∧ t.instances = s.instances ∧
          (∀ e ∈ s.corrections.take n, t.dramWord e.addr = validWord e.sample) ∧
          (∀ q, q ∉ (s.corrections.take n).map WriteBack.addr → t.dramWord q = (s.upsets us).dramWord q) ∧
          (a.op = .read → t.near = s.near ∧
            t.link = { s.link with
              reserved := s.link.reserved - 1,
              sendOrder := s.link.sendOrder ++ [⟨a.tag, 0xD1, .ok,
                beBytes 2 a.positions.length ++ beBytes 2 a.bad
                  ++ (a.got ++ words.map fun j => (s.nearWord (place j)).toInt).flatMap s3⟩] }) ∧
          ∀ vs, a.op = .write vs →
            t.link = { s.link with reserved := s.link.reserved - 1,
                                   sendOrder := s.link.sendOrder ++ [⟨a.tag, 0xD2, .ok, beBytes 2 a.positions.length⟩] } ∧
            (∀ q, q ∉ words.map place → t.nearWord q = s.nearWord q) ∧
            ((words.map place).Nodup → ∀ j ∈ words, t.nearWord (place j) = BitVec.ofInt 24 (vs.getD j 0))

/-! ### Notices -/

/-- A raised condition sets its own flag, bit or detail where its group, which R196 gives, is enabled and is lost where it is not; every other flag and every
configuration stands (R196, R197). -/
def Obligations.ConditionsLatch : Prop :=
  ∀ (n : Notices) (c : Condition),
    ((n.config c.group).enabled = false → n.raise c = n) ∧
    ((n.config c.group).enabled = true →
      n.raise c = (match c with
        | .holdover => { n with holdover := true }
        | .lockRestored => { n with lockRestored := true }
        | .outClip m => { n with outClip := n.outClip ||| m }
        | .corrected l => { n with corrected := some l }
        | .uncorrectable l => { n with uncorrectable := some l }
        | .dropped a => { n with dropped := some a }
        | .released i => { n with released := n.released ||| 1#24 <<< i.val }
        | .stolen i => { n with stolen := n.stolen ||| 1#24 <<< i.val }
        | .startFailed i => { n with startFailed := n.startFailed ||| 1#24 <<< i.val }
        | .admitted i => { n with admitted := n.admitted ||| 1#24 <<< i.val }
        | .clipped i => { n with clipped := n.clipped ||| 1#24 <<< i.val }
        | .limit i => { n with limit := n.limit ||| 1#24 <<< i.val }
        | .applied k => { n with applied := some k }
        | .tapTempo t => { n with tapTempo := some t }
        | .overrun t => { n with overrun := some t }
        | .badFrame k => { n with badFrame := some k })) ∧
    (∀ g, (n.raise c).config g = n.config g) ∧
    (c.group = match c with
      | .holdover | .lockRestored | .outClip _ => .port
      | .corrected _ | .uncorrectable _ | .dropped _ => .memory
      | .released _ | .stolen _ | .startFailed _ | .admitted _ | .clipped _ | .limit _ => .inst
      | .applied _ => .cue
      | .tapTempo _ => .tempo
      | .overrun _ | .badFrame _ => .link) ∧
    ((n.config c.group).enabled = true → c ≠ .outClip 0 → (n.raise c).pending c.group = true) ∧
    ∀ g, g ≠ c.group → (n.raise c).flags g = n.flags g

/-- NOTICE_CONFIG sets one group's enable and priority and no flag; NOTICE_READ lists every group with a pending flag once, by descending
priority and then in tie order, each with its code, priority, enable, pending set and details in the widths and the order of R205, a
detail that is not pending zero, and changes nothing (R198, R199, R205). A location without an owner, which no run makes, is written 0xFF
0xFF (log 21). -/
def Obligations.NoticeConfigAndRead : Prop :=
  let groups : List Group := [.port, .memory, .inst, .cue, .tempo, .link]
  (∀ (s : State) (f : Frame) (rest : List Frame) (a b p : Byte), CanTake s f rest → f.kind = 0x62 → f.body = [a, b, p] →
    (6 ≤ a.toNat ∨ 2 ≤ b.toNat ∨ 4 ≤ p.toNat → exec .noticeConfig s = .next (s.replied f rest .badArg [])) ∧
    (b.toNat ≤ 1 → p.toNat ≤ 3 → ∀ g, groups[a.toNat]? = some g →
      let c : GroupConfig := ⟨decide (b = 1), p.toNat⟩
      let t : Notices :=
        match g with
        | .port => { s.notices with portCfg := c }
        | .memory => { s.notices with memoryCfg := c }
        | .inst => { s.notices with instCfg := c }
        | .cue => { s.notices with cueCfg := c }
        | .tempo => { s.notices with tempoCfg := c }
        | .link => { s.notices with linkCfg := c }
      exec .noticeConfig s = .next (State.replied f rest .ok [a, b, p] { s with notices := t }))) ∧
  (∀ (s : State) (f : Frame) (rest : List Frame), CanTake s f rest → f.kind = 0x60 → f.body = [] →
    let n := s.notices
    let place : Option Location → List Byte := fun l =>
      match l with
      | some l => beBytes 2 l.page ++ beBytes 2 l.offset ++
          match l.owner with
          | some o => [instByte o.inst, BitVec.ofNat 8 o.line]
          | none => [0xFF, 0xFF]
      | none => [0, 0, 0, 0, 0, 0]
    let block : Byte → GroupConfig → List Bool → List Byte → List Byte := fun g c flags details =>
      [g, BitVec.ofNat 8 c.priority, if c.enabled then 1 else 0,
        BitVec.ofNat 8 ((flags.zipIdx.map fun z => if z.1 then 2 ^ z.2 else 0).sum)] ++ details
    exec .noticeRead s = .next (s.replied f rest .ok
      (BitVec.ofNat 8 n.listed.length :: n.listed.flatMap fun g =>
        match g with
        | .port => block 0 n.portCfg [n.holdover, n.lockRestored, n.outClip != 0] (beBytes 4 n.outClip.toNat)
        | .memory => block 1 n.memoryCfg [n.corrected.isSome, n.uncorrectable.isSome, n.dropped.isSome]
            (place n.corrected ++ place n.uncorrectable ++ beBytes 4 (n.dropped.getD 0))
        | .inst => block 2 n.instCfg
            [n.released != 0, n.stolen != 0, n.startFailed != 0, n.admitted != 0, n.clipped != 0, n.limit != 0]
            ([n.released, n.stolen, n.startFailed, n.admitted, n.clipped, n.limit].flatMap fun m => beBytes 3 m.toNat)
        | .cue => block 3 n.cueCfg [n.applied.isSome]
            (match n.applied with
              | some k => [BitVec.ofNat 8 k.applied, BitVec.ofNat 8 k.skipped, BitVec.ofNat 8 (k.first.getD 0xFF)]
              | none => [0, 0, 0])
        | .tempo => block 4 n.tempoCfg [n.tapTempo.isSome] (beBytes 2 (n.tapTempo.getD 0))
        | .link => block 5 n.linkCfg [n.overrun.isSome, n.badFrame.isSome]
            [n.overrun.getD 0,
              match n.badFrame with
              | some .stray => 0
              | some .length => 1
              | some .deselect => 2
              | none => 0]))) ∧
  ∀ n : Notices, (∀ g, (n.config g).priority ≤ 3) →
    (groups.map n.config = [n.portCfg, n.memoryCfg, n.instCfg, n.cueCfg, n.tempoCfg, n.linkCfg]) ∧
    (∀ g, g ∈ n.listed ↔ match g with
      | .port => n.holdover = true ∨ n.lockRestored = true ∨ n.outClip ≠ 0
      | .memory => n.corrected ≠ none ∨ n.uncorrectable ≠ none ∨ n.dropped ≠ none
      | .inst => n.released ≠ 0 ∨ n.stolen ≠ 0 ∨ n.startFailed ≠ 0 ∨ n.admitted ≠ 0 ∨ n.clipped ≠ 0 ∨ n.limit ≠ 0
      | .cue => n.applied ≠ none
      | .tempo => n.tapTempo ≠ none
      | .link => n.overrun ≠ none ∨ n.badFrame ≠ none) ∧
    (∀ g, g ∈ n.listed ↔ n.pending g = true) ∧
    n.listed.Pairwise fun g h =>
      (n.config h).priority < (n.config g).priority ∨
        (n.config h).priority = (n.config g).priority ∧ groups.idxOf g < groups.idxOf h

/-- NOTICE_CLEAR of 1 to 6 entries clears the named flags with their details and the named bits of the named masks, and nothing else; the
entries of one group are joined, flags and bits, before the clear (log 17). A bad count, an unknown group or a flag not of its group, in
any entry, is BAD_ARG and clears nothing (R200, R205). -/
def Obligations.NoticeClearClearsWhatItNames : Prop :=
  ∀ (s : State) (f : Frame) (rest : List Frame), CanTake s f rest → f.kind = 0x61 →
    (∀ n es, f.body = n :: es → es.length = 20 * n.toNat → (n = 0 ∨ 6 < n.toNat) →
      exec .noticeClear s = .next (s.replied f rest .badArg [])) ∧
    ∀ es : List (Byte × Byte × List Byte), 1 ≤ es.length → es.length ≤ 6 → (∀ e ∈ es, e.2.2.length = 18) →
      f.body = BitVec.ofNat 8 es.length :: es.flatMap (fun e => e.1 :: e.2.1 :: e.2.2) →
      let flagCounts : List Nat := [3, 3, 6, 1, 1, 2]
      ((∃ e ∈ es, 6 ≤ e.1.toNat ∨ ∃ m, flagCounts[e.1.toNat]? = some m ∧ 2 ^ m ≤ e.2.1.toNat) →
        exec .noticeClear s = .next (s.replied f rest .badArg [])) ∧
      ((∀ e ∈ es, ∃ m, flagCounts[e.1.toNat]? = some m ∧ e.2.1.toNat < 2 ^ m) →
        let n := s.notices
        let named : Byte → Nat → Bool := fun g k => es.any fun e => decide (e.1 = g) && e.2.1.getLsbD k
        let mask : Byte → (w k o : Nat) → BitVec w → BitVec w := fun g w k o m =>
          if named g k then
            (es.filter fun e => e.1 = g).foldl
              (fun m e => m &&& ~~~ BitVec.ofNat w (beVal ((e.2.2.drop o).take (w / 8)))) m
          else m
        exec .noticeClear s = .next (State.replied f rest .ok []
          { s with notices :=
              { n with
                holdover := n.holdover && !named 0 0, lockRestored := n.lockRestored && !named 0 1,
                outClip := mask 0 32 2 0 n.outClip,
                corrected := if named 1 0 then none else n.corrected,
                uncorrectable := if named 1 1 then none else n.uncorrectable,
                dropped := if named 1 2 then none else n.dropped,
                released := mask 2 24 0 0 n.released, stolen := mask 2 24 1 3 n.stolen,
                startFailed := mask 2 24 2 6 n.startFailed, admitted := mask 2 24 3 9 n.admitted,
                clipped := mask 2 24 4 12 n.clipped, limit := mask 2 24 5 15 n.limit,
                applied := if named 3 0 then none else n.applied,
                tapTempo := if named 4 0 then none else n.tapTempo,
                overrun := if named 5 0 then none else n.overrun,
                badFrame := if named 5 1 then none else n.badFrame } }))

/-! ### Frame clock and audio ports -/

/-- The monitor's edges, expiries and internal frame timer, outside an assertion of RESET (R174 to R180): which are frame starts, how the
counts and the mark move, and the moves between LOCKED and FREE; the samples of an edge are the top 24 bits of the slots of the two lane
frames that ended there, AIN0 first (R169). `d` is the time since the last timed event (log 3). An expiry without a mark and a timer frame
start while LOCKED are not due and change nothing (log 1).
HOLDOVER and LOCK_RESTORED make the same moves where their counts have been reached, which between events they have not (log 12). -/
def Obligations.FrameClockFollowsTheEdges : Prop :=
  (∀ (s : State) (env : FrameEnv) (d : Nat) (lanes : InputLanes), s.resetPin = false → MonitorInv s →
    s.wordsExist = true →
    let m := s.monitor
    let inputs : Vector Int 32 := Vector.ofFn fun k : PortNo =>
      (BitVec.extractLsb' (512 - 32 * (k.val % 16) - 24) 24 (if k.val < 16 then lanes.ain0 else lanes.ain1)).toInt
    let silent : Vector Int 32 := Vector.replicate 32 0
    (m.sinceMark = none →
      exec (.afsEdge d lanes env) s =
        .next { s with monitor := { m with sinceMark := some 0, sinceFrame := m.sinceFrame + d } } ∧
      exec (.edgeWatchExpiry env) s = .next s) ∧
    (∀ q, m.sinceMark = some q →
      let m1 : Monitor := { m with sinceMark := some (q + d), sinceFrame := m.sinceFrame + d }
      let good : Prop := s.clockRate.goodLow ≤ q + d ∧ q + d ≤ s.clockRate.goodHigh
      (m.lock = .locked → good → exec (.afsEdge d lanes env) s = .next (State.frameStart inputs env
        { s with monitor := { m with good := min (m.good + 1) 16, bad := 0, sinceMark := some 0, sinceFrame := 0 } })) ∧
      (m.lock = .locked → ¬ good → m.bad ≤ 2 →
        exec (.afsEdge d lanes env) s = .next { s with monitor := { m1 with good := 0, bad := m.bad + 1 } }) ∧
      (m.lock = .locked → ¬ good → m.bad = 3 → exec (.afsEdge d lanes env) s =
        .next (State.raise .holdover { s with monitor := { m1 with lock := .free, good := 0, bad := 0 } })) ∧
      (m.lock = .free → good → m.good ≤ 14 → exec (.afsEdge d lanes env) s =
        .next { s with monitor := { m1 with good := m.good + 1, bad := 0, sinceMark := some 0 } }) ∧
      (m.lock = .free → good → m.good = 15 → exec (.afsEdge d lanes env) s = .next (State.raise .lockRestored
        { s with monitor := { m1 with lock := .locked, good := 0, bad := 0, sinceMark := some 0 } })) ∧
      (m.lock = .free → ¬ good → exec (.afsEdge d lanes env) s =
        .next { s with monitor := { m1 with good := 0, bad := min (m.bad + 1) 4, sinceMark := some 0 } }) ∧
      let left := s.clockRate.watch - q
      (m.lock = .locked → m.bad ≤ 2 → exec (.edgeWatchExpiry env) s = .next (State.frameStart silent env
        { s with monitor := { m with good := 0, bad := m.bad + 1, sinceMark := some 0, sinceFrame := 0 } })) ∧
      (m.lock = .locked → m.bad = 3 → exec (.edgeWatchExpiry env) s = .next (State.frameStart silent env (State.raise .holdover
        { s with monitor := { m with lock := .free, good := 0, bad := 0, sinceMark := some 0, sinceFrame := 0 } }))) ∧
      (m.lock = .free → exec (.edgeWatchExpiry env) s = .next
        { s with monitor := { m with good := 0, bad := min (m.bad + 1) 4, sinceMark := some 0,
                                     sinceFrame := m.sinceFrame + left } })) ∧
    (m.lock = .locked → exec (.internalFrameTimer env) s = .next s) ∧
    (m.lock = .free → exec (.internalFrameTimer env) s = .next (State.frameStart silent env
      { s with monitor := { m with
          sinceMark := m.sinceMark.map (· + (s.clockRate.nominal - m.sinceFrame)), sinceFrame := 0 } }))) ∧
  ∀ s : State,
    (s.monitor.lock = .locked → s.monitor.bad = 4 → exec .holdover s = .next (State.raise .holdover
      { s with monitor := { s.monitor with lock := .free, good := 0, bad := 0 } })) ∧
    (s.monitor.lock = .free ∨ s.monitor.bad ≠ 4 → exec .holdover s = .next s) ∧
    (s.monitor.lock = .free → s.monitor.good = 16 → exec .lockRestored s = .next (State.raise .lockRestored
      { s with monitor := { s.monitor with lock := .locked, good := 0, bad := 0 } })) ∧
    (s.monitor.lock = .locked ∨ s.monitor.good ≠ 16 → exec .lockRestored s = .next s) ∧
    (MonitorInv s → exec .holdover s = .next s ∧ exec .lockRestored s = .next s)

/-- A frame start with no event of the frame before outstanding: the input samples are taken; the pending set is sent while LOCKED, with
its clamped slots raised, and silence while FREE; in SETUP nothing is processed; in RUN the tap age grows to at most 2 × Fs + 1, the
leftover slots are counted, a pending cue becomes due, and the tap engine's exact slot sums are clamped into the new pending set (R24,
R53, R124, R159, R163, R170 to R172). Where RESET is asserted during its processing, the frame ends: the line writes made by then stand,
in the frame's order of instances, no other word is written, and the rest of the state is that of the RESET pin (R48, log 23). The bits the
DRAM has inverted and the order of instances are operands of the frame start (logs 5 and 7). -/
def Obligations.FrameStartHandsOver : Prop :=
  (∀ (s : State) (inputs : Vector Int 32) (env : FrameEnv) (n : Nat), PoolInv s → RunningInv s → s.serviceDue = none → s.cue.due = false →
    (∀ i, (s.inst i).decision = none) → env.cut = some n →
    let written : List (Pool × Nat) := (env.order ++ allInsts).eraseDups.flatMap fun i =>
      match (s.inst i).running with
      | some y => y.lines.map fun l => (l.pool, translate l.pages l.w)
      | none => []
    ∃ whole t, State.frame inputs { env with cut := none } s = .next whole ∧ State.frame inputs env s = .next t ∧
      t = { State.reset with pending := s.pending, powerUps := s.powerUps, library := s.library, near := t.near, dram := t.dram,
                             resetPin := true } ∧
      (∀ a, t.nearWord a = if (Pool.near, a) ∈ written.take n then whole.nearWord a else s.nearWord a) ∧
      ∀ a, t.dramWord a = if (Pool.far, a) ∈ written.take n then whole.dramWord a else (s.upsets env.upsets).dramWord a) ∧
  ∀ (s : State) (inputs : Vector Int 32) (env : FrameEnv), s.wordsExist = true → s.serviceDue = none → s.cue.due = false →
    (∀ i, (s.inst i).decision = none) → env.cut = none →
    ∃ t, State.frame inputs env s = .next t ∧ t.monitor = s.monitor ∧ t.link = s.link ∧ t.library = s.library ∧
      t.queue = s.queue ∧ t.spill = s.spill ∧ t.run = s.run ∧ t.ports.inputs = inputs ∧
      t.ports.transmit = (if s.monitor.lock = .locked then s.ports.pending else Vector.replicate 32 0) ∧
      t.notices.outClip = (if s.monitor.lock = .locked ∧ s.notices.portCfg.enabled = true then
        s.notices.outClip ||| s.ports.pendingClip else s.notices.outClip) ∧
      (s.run = none → t.ports.pending = Vector.replicate 32 0 ∧ t.ports.pendingClip = 0 ∧ t.instances = s.instances ∧
        t.tempo = s.tempo ∧ t.cue = s.cue ∧ t.access = s.access ∧ t.near = s.near ∧ t.serviceDue = none) ∧
      ∀ r, s.run = some r →
        t.tempo = { s.tempo with lastTap := s.tempo.lastTap.map fun a => min (a + 1) (2 * r.rate.hz + 1) } ∧
        t.serviceDue = some (r.rate.budget - r.budgetInUse) ∧ t.cue = { s.cue with due := s.cue.pendingFlag } ∧
        t.access = s.access.map (fun a => { a with frameSeen := true }) ∧
        ∃ u : State, u.instances = s.instances ∧ u.ports.inputs = inputs ∧ u.tempo.tempo = s.tempo.tempo ∧ u.run = s.run ∧
          u.near = s.near ∧ u.dram = (s.upsets env.upsets).dram ∧ u.powerUps = s.powerUps ∧
          t.instances = (processAll r.rate env.order u).2.instances ∧ t.near = (processAll r.rate env.order u).2.near ∧
          t.dram = (processAll r.rate env.order u).2.dram ∧
          ∀ k : PortNo,
            t.ports.pending[k.val] = sat24 ((processAll r.rate env.order u).1[k.val]) ∧
            (t.ports.pendingClip.getLsbD k.val = true ↔
              (processAll r.rate env.order u).1[k.val] < -8388608 ∨ 8388607 < (processAll r.rate env.order u).1[k.val])

/-! ### The tap engine -/

/-- The interpolated read: floor((s0 × (256 − f) + s1 × f + 128) / 256), formed where neither source sample is UNCORRECTABLE; s0 itself with
f = 0; between its two source samples inclusive, so never saturated; its largest intermediate within 8,388,608 × 256 (R36). -/
def Obligations.InterpolatedReadLiesBetween : Prop :=
  (∀ (l : LineRun) (d : Nat) (s : State) (s0 s1 : Int), (sourceSample l (d / 256) s).1.sample = some s0 →
    (sourceSample l (d / 256 + 1) s).1.sample = some s1 →
    tapRead l d s = some ((s0 * (256 - ((d % 256 : Nat) : Int)) + s1 * ((d % 256 : Nat) : Int) + 128) / 256)) ∧
  ∀ (s0 s1 : Int) (f : Nat), sampleOk s0 → sampleOk s1 → f < 256 →
    let r := interpolate s0 s1 f
    r = (s0 * (256 - (f : Int)) + s1 * (f : Int) + 128) / 256 ∧ (f = 0 → r = s0) ∧ min s0 s1 ≤ r ∧ r ≤ max s0 s1 ∧
      sampleOk r ∧ (s0 * (256 - (f : Int)) + s1 * (f : Int)).natAbs ≤ 8388608 * 256

/-- A tap's frame from its read on: a good read becomes the held read, which stands in for a failed one (R37); y = r + floor(d × (y_prev − r) /
32768) becomes the damping state in every frame (R38); the current gain moves toward its working target by 512 (R32); and the product is
y times that gain, exactly (R39). y = r with d = 0, y lies between r and y_prev inclusive, and the damping state and held read of a newly
admitted tap are 0 (R30, R38). -/
def Obligations.DampLiesBetween : Prop :=
  (∀ (c : FrameCtx) (t : TapProg) (u : TapRun) (s : State),
    (tapFrame c t u s).run.damping =
      (tapFrame c t u s).run.heldRead
        + (tapDamp c.state t : Int) * (u.damping - (tapFrame c t u s).run.heldRead) / 32768 ∧
    (tapRead (c.lineOf t) (frameDelay c t u) s = none → (tapFrame c t u s).run.heldRead = u.heldRead) ∧
    (∀ r, tapRead (c.lineOf t) (frameDelay c t u) s = some r → (tapFrame c t u s).run.heldRead = r) ∧
    (tapFrame c t u s).run.gain = moveInt 512 u.gain (tapGainTarget c.state t) ∧
    (tapFrame c t u s).product = (tapFrame c t u s).run.damping * (tapFrame c t u s).run.gain) ∧
  (∀ (rate : SampleRate) (tempo : Nat) (t : TapProg),
    (tapStart rate tempo t).damping = 0 ∧ (tapStart rate tempo t).heldRead = 0) ∧
  ∀ (d : Nat) (r prev : Int), d ≤ 32767 → sampleOk r → sampleOk prev →
    let y := dampStep d r prev
    y = r + (d : Int) * (prev - r) / 32768 ∧ (d = 0 → y = r) ∧ min r prev ≤ y ∧ y ≤ max r prev ∧ sampleOk y

/-- A gain or a glide value reaches its target in the smallest whole number of frames whose steps add up to the distance, upward and downward,
and stays there (R32, R59, R60); and the working targets and steps of each state (R31). -/
def Obligations.GainsSlewToTheirTargets : Prop :=
  (∀ (step : Nat), 0 < step → ∀ n : Nat,
    (∀ cur target : Int, (moveInt step · target)^[n] cur = target ↔ (target - cur).natAbs ≤ step * n) ∧
    (∀ cur target : Nat, (moveNat step · target)^[n] cur = target ↔ ((target : Int) - cur).natAbs ≤ step * n) ∧
    ∀ cur target : Int, step * n ≤ (target - cur).natAbs →
      (moveInt step · target)^[n] cur = if cur < target then cur + step * n else cur - step * n) ∧
  ∀ (p : Program) (t : TapProg),
    (inTarget .running p = p.inGain ∧ inTarget .held p = 0 ∧ inTarget .spilling p = 0 ∧ inTarget .cutting p = 0) ∧
    (inStep .running = 512 ∧ inStep .held = 512 ∧ inStep .spilling = 128 ∧ inStep .cutting = 512) ∧
    (outTarget .running p = p.outGain ∧ outTarget .held p = p.outGain ∧ outTarget .spilling p = p.outGain ∧
      outTarget .cutting p = 0) ∧
    (tapGainTarget .held t = if t.hold then 32767 else t.gain) ∧ (tapDamp .held t = if t.hold then 0 else t.damp) ∧
    ∀ st, st ≠ .held → tapGainTarget st t = t.gain ∧ tapDamp st t = t.damp

/-- The delay-time stage (R57 to R59, R63, R64, R66, R67): target, glide step, LFO values within 16 bits, offset, and a delay D of at least
one sample and at most L − 2 samples on every line of at least one page. -/
def Obligations.DelayIsFormedAndClamped : Prop :=
  (∀ (c : FrameCtx) (t : TapProg) (u : TapRun),
    let target : Nat :=
      match t.source with
      | .fixed => t.fixed
      | .tempo => min ((2 * (c.rate.hz * 32000 * t.ticks) + c.tempo) / (2 * c.tempo)) 67108352
    let glide : Nat :=
      if c.glide = 0 then target
      else if ((target : Int) - u.glide).natAbs ≤ c.glide then target
      else if u.glide < target then u.glide + c.glide else u.glide - c.glide
    let offset : Int :=
      match t.lfo with
      | .none => 0
      | .lfo0 => (t.depth : Int) * c.v0 / 32768
      | .lfo1 => (t.depth : Int) * c.v1 / 32768
    2048 ≤ (c.lineOf t).len →
      (frameDelay c t u : Int) = max 256 (min ((((c.lineOf t).len : Int) - 2) * 256) ((glide : Int) + offset)) ∧
      256 ≤ frameDelay c t u ∧ frameDelay c t u ≤ ((c.lineOf t).len - 2) * 256 ∧
      ∀ s : State, (tapFrame c t u s).delay = frameDelay c t u ∧ (tapFrame c t u s).run.target = target ∧
        (tapFrame c t u s).run.glide = glide) ∧
  ∀ phase : Nat, phase < 4294967296 →
    let q : Int := ((phase / 65536 : Nat) : Int)
    let t := lfoValue .triangle phase
    (t = if q < 32768 then 2 * q - 32768 else 98303 - 2 * q) ∧ -32768 ≤ t ∧ t ≤ 32767 ∧
      lfoValue .smooth phase = max (-32768) (min 32767 (t * (3 * 2 ^ 30 - t * t) / 2 ^ 31))

/-- One frame of one instance (R39 to R45): the taps read the lines as they stand before the frame's writes; outputs, line writes, clip flag
with its CLIPPED bit, the advance of every line and LFO, and the window, which its 256th frame completes with the window end (R110).
The error record follows the taps' reads in tap order (R156). Where no two lines write the same word, each write stands in its word, with
a fresh code and its queued write-back removed, and no other word of either memory changes (R28, R155). -/
def Obligations.InstanceFrameArithmetic : Prop :=
  ∀ (rate : SampleRate) (i : InstNo) (x : Inst) (p : Program) (y : Running) (s : State), y.lines.length = p.lines.length →
    let c := frameCtx rate i x p y s
    let o := instFrame rate i x p y s
    let taps : List TapOut := List.zipWith (fun t u => tapFrame c t u s) p.taps y.taps
    let sumTo : Dest → Int := fun d => ((p.taps.zip taps).map fun z => if z.1.dest = d then z.2.product else 0).sum
    let inG := moveNat (inStep x.state) y.inGain (inTarget x.state p)
    let outG := moveNat 512 y.outGain (outTarget x.state p)
    let inA : Int := (x.routing.inA.map fun k => s.ports.inputs[k.val]).getD 0
    let inB : Int := (x.routing.inB.map fun k => s.ports.inputs[k.val]).getD 0
    let fed : Feed → Int := fun g =>
      match g with
      | .none => 0
      | .a => inA
      | .b => inB
      | .mid => (inA + inB) / 2
    let acc : Nat → LineProg → Int := fun j l => fed l.feed * inG + sumTo (.line j)
    let clamps : Int → Prop := fun v => v < -8388608 ∨ 8388607 < v
    o.outA = sat24 (round15 (sat24 (round15 (sumTo .outA)) * outG)) ∧
    o.outB = sat24 (round15 (sat24 (round15 (sumTo .outB)) * outG)) ∧
    (outG ≤ 32767 → -8388352 ≤ o.outA ∧ o.outA ≤ 8388351 ∧ -8388352 ≤ o.outB ∧ o.outB ≤ 8388351) ∧
    (outG ≤ 32767 → (o.inst.clip = true ↔ clamps (round15 (sumTo .outA)) ∨ clamps (round15 (sumTo .outB)) ∨
      ∃ (j : Nat) (l : LineProg), p.lines[j]? = some l ∧ clamps (round15 (acc j l)))) ∧
    (let after : Inst :=
      { x with
        clip := o.inst.clip,
        releaseDue := x.releaseDue || (decide (x.state = .cutting) && decide (outG = 0)),
        running := some { y with
          lines := y.lines.map fun l => { l with w := (l.w + 1) % l.len, f := min (l.f + 1) l.len },
          taps := taps.map TapOut.run, inGain := inG, outGain := outG,
          lfo0 := { y.lfo0 with phase := (y.lfo0.phase + y.lfo0.inc) % 2 ^ 32 },
          lfo1 := { y.lfo1 with phase := (y.lfo1.phase + y.lfo1.inc) % 2 ^ 32 },
          windowProgress := y.windowProgress + 1,
          windowPeak := max y.windowPeak (max o.outA.natAbs o.outB.natAbs) } }
     (y.windowProgress + 1 < 256 → o.inst = after) ∧ (256 ≤ y.windowProgress + 1 → o.inst = after.windowEnd)) ∧
    o.state.notices.clipped = (if o.inst.clip = true ∧ s.notices.instCfg.enabled = true then s.notices.clipped ||| 1#24 <<< i.val
      else s.notices.clipped) ∧
    o.state.errors = ((p.taps.zip taps).foldl (fun t z => tapService (c.lineOf z.1) z.2.delay t) s).errors ∧
    (let at' : Pool → List Nat := fun q => (y.lines.filter fun l => l.pool = q).map fun l => translate l.pages l.w
     (at' .near).Nodup → (at' .far).Nodup →
      (∀ (j : Nat) (l : LineRun) (g : LineProg), y.lines[j]? = some l → p.lines[j]? = some g →
        (l.pool = .near → o.state.nearWord (translate l.pages l.w) = BitVec.ofInt 24 (sat24 (round15 (acc j g)))) ∧
        (l.pool = .far → o.state.dramWord (translate l.pages l.w) = validWord (sat24 (round15 (acc j g))) ∧
          ∀ e ∈ o.state.corrections, e.addr ≠ translate l.pages l.w)) ∧
      (∀ a, a ∉ at' .near → o.state.nearWord a = s.nearWord a) ∧
      ∀ a, a ∉ at' .far → o.state.dramWord a = s.dramWord a)

/-- R111: at each window end the level code of the window peak, min(15, max(0, bitlength(peak) − 8)), becomes the instance's last level;
each level from 1 to 14 spans one doubling of the peak, level 0 all peaks up to 255, level 15 all from 4,194,304. Outside SPILLING the
window end does nothing further; WINDOW_END says what it does there. -/
def Obligations.WindowLevelCode : Prop :=
  (∀ (x : Inst) (y : Running), x.running = some y →
    x.windowEnd.lastLevel = some (min 15 (bitlength y.windowPeak - 8)) ∧
    (x.state ≠ .spilling → x.windowEnd =
      { x with lastLevel := some (min 15 (bitlength y.windowPeak - 8)),
               running := some { y with windowProgress := 0, windowPeak := 0 } })) ∧
  (∀ peak : Nat, (min 15 (bitlength peak - 8) = 0 ↔ peak ≤ 255) ∧ (min 15 (bitlength peak - 8) = 15 ↔ 4194304 ≤ peak)) ∧
  ∀ peak n : Nat, 1 ≤ n → n ≤ 14 → (min 15 (bitlength peak - 8) = n ↔ 2 ^ (n + 7) ≤ peak ∧ peak < 2 ^ (n + 8))

/-- WINDOW_END: with 256 frames the level is made, the window restarts, and in SPILLING the quiet count, the spill window count and the
decision follow R112; a window not complete is not ended (log 12). -/
def Obligations.WindowEndJudgesTheTail : Prop :=
  ∀ (s : State) (i : InstNo),
    ((s.inst i).running = none → exec (.windowEnd i) s = .next s) ∧
    ∀ (y : Running) (p : Program), (s.inst i).running = some y → (s.inst i).program = some p →
      (y.windowProgress < 256 → exec (.windowEnd i) s = .next s) ∧
      (256 ≤ y.windowProgress →
        let x := s.inst i
        let level := min 15 (bitlength y.windowPeak - 8)
        let q := if level ≤ p.tailFloor then x.quietCount + 1 else if p.tailFloor + 2 ≤ level then 0 else x.quietCount
        let n := x.spillWindows + 1
        let ended : Inst := { x with lastLevel := some level, running := some { y with windowProgress := 0, windowPeak := 0 } }
        (x.state ≠ .spilling → exec (.windowEnd i) s = .next (s.setInst i ended)) ∧
        (x.state = .spilling → exec (.windowEnd i) s = .next (s.setInst i
          { ended with
            quietCount := q, spillWindows := n,
            decision := if p.quiet ≤ x.quietCount ∨ p.quiet ≤ q then some .release
              else if p.spillLimit ≤ n then some .limit else x.decision })))

/-- Instances have no order among themselves (R24): in any order of one frame each instance that holds pages comes to what its own processing
of the state before the frame gives, every other one stands, each slot sum is the sum of the outputs routed to it, and any two
orders leave the same word in every place of both memories (log 7). -/
def Obligations.EachInstanceIsProcessedOnItsOwn : Prop :=
  ∀ (s : State) (r : Run) (order : List InstNo), PoolInv s → RunningInv s → s.run = some r →
    let t := processAll r.rate order s
    let outputs : InstNo → Int × Int := fun i =>
      match (s.inst i).program, (s.inst i).running with
      | some p, some y => ((instFrame r.rate i (s.inst i) p y s).outA, (instFrame r.rate i (s.inst i) p y s).outB)
      | _, _ => (0, 0)
    (∀ i p y, (s.inst i).program = some p → (s.inst i).running = some y →
      t.2.inst i = (instFrame r.rate i (s.inst i) p y s).inst) ∧
    (∀ i, (s.inst i).running = none → t.2.inst i = s.inst i) ∧
    (∀ k : PortNo, t.1[k.val] = (allInsts.map fun i =>
      (if (s.inst i).routing.outA = some k then (outputs i).1 else 0)
        + (if (s.inst i).routing.outB = some k then (outputs i).2 else 0)).sum) ∧
    ∀ (order' : List InstNo) (a : Nat),
      (processAll r.rate order' s).2.nearWord a = t.2.nearWord a ∧ (processAll r.rate order' s).2.dramWord a = t.2.dramWord a

/-! ### Invariants -/

/-- Between events with sound pools no command faults or is refused: every word the part may reach exists (R3, R6, log 18). -/
def Obligations.NoCommandFaults : Prop :=
  ∀ (c : Instr) (s : State), PoolInv s → ∃ t, exec c s = .next t

/-- Every step keeps the link's inbox, outbox, receiver and reserved places in order, one place for each request in flight (R183, R185 to
R187, R189); the cue unit's lists, entries, flag and origin (R118, R119, R122, R124); and the tempo within 3000 to 30000 with at most 4
intervals, each from Fs/5 to 2 × Fs frames (R49, R52, R53). -/
def Obligations.LinkCueAndTempoInvariantsKept : Prop :=
  ∀ s t : State, step s = .next t → (LinkInv s → LinkInv t) ∧ (CueInv s → CueInv t) ∧ (TempoInv s → TempoInv t)

/-- Every step keeps the instance table and its lists in agreement, the queue holding exactly the WAITING instances and the spill list the
SPILLING ones, once each (R7, R100, R108); the budget in use equal to the sum of the held costs and at most B (R16); every library
record loadable; and every program and stored value within its limits (R70, R75, R88, R134, R141). -/
def Obligations.TableInvariantsKept : Prop :=
  ∀ s t : State, step s = .next t →
    (InstancesInv s → InstancesInv t) ∧ (BudgetInv s → BudgetInv t) ∧ (LibraryInv s → LibraryInv t) ∧
      (ProgramsInv s → ProgramsInv t)

/-- Every step keeps the memories in their canonical form, the correction queue and error counts within bounds, the monitor's counts, the
port samples and the notice priorities in range (R154, R156, R169, R171, R174, R197). -/
def Obligations.PlainInvariantsKept : Prop :=
  ∀ s t : State, step s = .next t →
    (Memory.wf s = true → Memory.wf t = true) ∧ (ServiceInv s → ServiceInv t) ∧ (MonitorInv s → MonitorInv t) ∧
      (PortsInv s → PortsInv t) ∧ (NoticesInv s → NoticesInv t)

/-- Every step keeps the pools sound: every page is free once or in one page list once, and the owner table says which (R6, R7). -/
def Obligations.PoolInvariantKept : Prop :=
  ∀ s t : State, PoolInv s → step s = .next t → PoolInv t

/-- Every step keeps every running field in its range (R27, R30, R33, R61, R110), and with them the quiet count at most 15 and the spill
window count at most 65,535 (R109, R112), given that a decision is taken before its instance's next window ends (log 8). -/
def Obligations.RunningInvariantKept : Prop :=
  ∀ s t : State, RunningInv s → step s = .next t → RunningInv t ∧ (TailInv s → TailInv t)

/-- The state after power-up meets every invariant. -/
def Obligations.InvariantsHoldAtReset : Prop :=
  let s := State.reset
  LinkInv s ∧ CueInv s ∧ TempoInv s ∧ Memory.wf s = true ∧ ServiceInv s ∧ MonitorInv s ∧ PortsInv s ∧ NoticesInv s ∧
    LibraryInv s ∧ ProgramsInv s ∧ InstancesInv s ∧ BudgetInv s ∧ PoolInv s ∧ RunningInv s ∧
    TailInv s
end

