-- ==== Sys2Proof/Laws/State.lean ====
section
/-! SUPPORT. What every named update of the state leaves in every field: one lemma per field per update, by `rfl`, so that no
later proof unfolds a record update. -/

namespace Sys2Proof.Machine

/-! ### setInst -/

@[simp] theorem State.setInst_pending (i : InstNo) (x : Inst) (s : State) : (s.setInst i x).pending = s.pending := rfl
@[simp] theorem State.setInst_powerUps (i : InstNo) (x : Inst) (s : State) : (s.setInst i x).powerUps = s.powerUps := rfl
@[simp] theorem State.setInst_resetPin (i : InstNo) (x : Inst) (s : State) : (s.setInst i x).resetPin = s.resetPin := rfl
@[simp] theorem State.setInst_run (i : InstNo) (x : Inst) (s : State) : (s.setInst i x).run = s.run := rfl
@[simp] theorem State.setInst_instances (i : InstNo) (x : Inst) (s : State) :
    (s.setInst i x).instances = s.instances.set i.val x i.isLt := rfl
@[simp] theorem State.setInst_queue (i : InstNo) (x : Inst) (s : State) : (s.setInst i x).queue = s.queue := rfl
@[simp] theorem State.setInst_spill (i : InstNo) (x : Inst) (s : State) : (s.setInst i x).spill = s.spill := rfl
@[simp] theorem State.setInst_library (i : InstNo) (x : Inst) (s : State) : (s.setInst i x).library = s.library := rfl
@[simp] theorem State.setInst_tempo (i : InstNo) (x : Inst) (s : State) : (s.setInst i x).tempo = s.tempo := rfl
@[simp] theorem State.setInst_cue (i : InstNo) (x : Inst) (s : State) : (s.setInst i x).cue = s.cue := rfl
@[simp] theorem State.setInst_near (i : InstNo) (x : Inst) (s : State) : (s.setInst i x).near = s.near := rfl
@[simp] theorem State.setInst_dram (i : InstNo) (x : Inst) (s : State) : (s.setInst i x).dram = s.dram := rfl
@[simp] theorem State.setInst_corrections (i : InstNo) (x : Inst) (s : State) :
    (s.setInst i x).corrections = s.corrections := rfl
@[simp] theorem State.setInst_errors (i : InstNo) (x : Inst) (s : State) : (s.setInst i x).errors = s.errors := rfl
@[simp] theorem State.setInst_access (i : InstNo) (x : Inst) (s : State) : (s.setInst i x).access = s.access := rfl
@[simp] theorem State.setInst_serviceDue (i : InstNo) (x : Inst) (s : State) :
    (s.setInst i x).serviceDue = s.serviceDue := rfl
@[simp] theorem State.setInst_ports (i : InstNo) (x : Inst) (s : State) : (s.setInst i x).ports = s.ports := rfl
@[simp] theorem State.setInst_monitor (i : InstNo) (x : Inst) (s : State) : (s.setInst i x).monitor = s.monitor := rfl
@[simp] theorem State.setInst_link (i : InstNo) (x : Inst) (s : State) : (s.setInst i x).link = s.link := rfl
@[simp] theorem State.setInst_notices (i : InstNo) (x : Inst) (s : State) : (s.setInst i x).notices = s.notices := rfl

/-! ### modInst -/

@[simp] theorem State.modInst_pending (i : InstNo) (g : Inst → Inst) (s : State) : (s.modInst i g).pending = s.pending := rfl
@[simp] theorem State.modInst_powerUps (i : InstNo) (g : Inst → Inst) (s : State) :
    (s.modInst i g).powerUps = s.powerUps := rfl
@[simp] theorem State.modInst_resetPin (i : InstNo) (g : Inst → Inst) (s : State) :
    (s.modInst i g).resetPin = s.resetPin := rfl
@[simp] theorem State.modInst_run (i : InstNo) (g : Inst → Inst) (s : State) : (s.modInst i g).run = s.run := rfl
@[simp] theorem State.modInst_instances (i : InstNo) (g : Inst → Inst) (s : State) :
    (s.modInst i g).instances = s.instances.set i.val (g (s.inst i)) i.isLt := rfl
@[simp] theorem State.modInst_queue (i : InstNo) (g : Inst → Inst) (s : State) : (s.modInst i g).queue = s.queue := rfl
@[simp] theorem State.modInst_spill (i : InstNo) (g : Inst → Inst) (s : State) : (s.modInst i g).spill = s.spill := rfl
@[simp] theorem State.modInst_library (i : InstNo) (g : Inst → Inst) (s : State) : (s.modInst i g).library = s.library := rfl
@[simp] theorem State.modInst_tempo (i : InstNo) (g : Inst → Inst) (s : State) : (s.modInst i g).tempo = s.tempo := rfl
@[simp] theorem State.modInst_cue (i : InstNo) (g : Inst → Inst) (s : State) : (s.modInst i g).cue = s.cue := rfl
@[simp] theorem State.modInst_near (i : InstNo) (g : Inst → Inst) (s : State) : (s.modInst i g).near = s.near := rfl
@[simp] theorem State.modInst_dram (i : InstNo) (g : Inst → Inst) (s : State) : (s.modInst i g).dram = s.dram := rfl
@[simp] theorem State.modInst_corrections (i : InstNo) (g : Inst → Inst) (s : State) :
    (s.modInst i g).corrections = s.corrections := rfl
@[simp] theorem State.modInst_errors (i : InstNo) (g : Inst → Inst) (s : State) : (s.modInst i g).errors = s.errors := rfl
@[simp] theorem State.modInst_access (i : InstNo) (g : Inst → Inst) (s : State) : (s.modInst i g).access = s.access := rfl
@[simp] theorem State.modInst_serviceDue (i : InstNo) (g : Inst → Inst) (s : State) :
    (s.modInst i g).serviceDue = s.serviceDue := rfl
@[simp] theorem State.modInst_ports (i : InstNo) (g : Inst → Inst) (s : State) : (s.modInst i g).ports = s.ports := rfl
@[simp] theorem State.modInst_monitor (i : InstNo) (g : Inst → Inst) (s : State) : (s.modInst i g).monitor = s.monitor := rfl
@[simp] theorem State.modInst_link (i : InstNo) (g : Inst → Inst) (s : State) : (s.modInst i g).link = s.link := rfl
@[simp] theorem State.modInst_notices (i : InstNo) (g : Inst → Inst) (s : State) : (s.modInst i g).notices = s.notices := rfl

/-! ### raise -/

@[simp] theorem State.raise_pending (c : Condition) (s : State) : (s.raise c).pending = s.pending := rfl
@[simp] theorem State.raise_powerUps (c : Condition) (s : State) : (s.raise c).powerUps = s.powerUps := rfl
@[simp] theorem State.raise_resetPin (c : Condition) (s : State) : (s.raise c).resetPin = s.resetPin := rfl
@[simp] theorem State.raise_run (c : Condition) (s : State) : (s.raise c).run = s.run := rfl
@[simp] theorem State.raise_instances (c : Condition) (s : State) : (s.raise c).instances = s.instances := rfl
@[simp] theorem State.raise_queue (c : Condition) (s : State) : (s.raise c).queue = s.queue := rfl
@[simp] theorem State.raise_spill (c : Condition) (s : State) : (s.raise c).spill = s.spill := rfl
@[simp] theorem State.raise_library (c : Condition) (s : State) : (s.raise c).library = s.library := rfl
@[simp] theorem State.raise_tempo (c : Condition) (s : State) : (s.raise c).tempo = s.tempo := rfl
@[simp] theorem State.raise_cue (c : Condition) (s : State) : (s.raise c).cue = s.cue := rfl
@[simp] theorem State.raise_near (c : Condition) (s : State) : (s.raise c).near = s.near := rfl
@[simp] theorem State.raise_dram (c : Condition) (s : State) : (s.raise c).dram = s.dram := rfl
@[simp] theorem State.raise_corrections (c : Condition) (s : State) : (s.raise c).corrections = s.corrections := rfl
@[simp] theorem State.raise_errors (c : Condition) (s : State) : (s.raise c).errors = s.errors := rfl
@[simp] theorem State.raise_access (c : Condition) (s : State) : (s.raise c).access = s.access := rfl
@[simp] theorem State.raise_serviceDue (c : Condition) (s : State) : (s.raise c).serviceDue = s.serviceDue := rfl
@[simp] theorem State.raise_ports (c : Condition) (s : State) : (s.raise c).ports = s.ports := rfl
@[simp] theorem State.raise_monitor (c : Condition) (s : State) : (s.raise c).monitor = s.monitor := rfl
@[simp] theorem State.raise_link (c : Condition) (s : State) : (s.raise c).link = s.link := rfl
@[simp] theorem State.raise_notices (c : Condition) (s : State) : (s.raise c).notices = s.notices.raise c := rfl

/-! ### writeNear -/

@[simp] theorem State.writeNear_pending (a : Nat) (v : Int) (s : State) : (s.writeNear a v).pending = s.pending := rfl
@[simp] theorem State.writeNear_powerUps (a : Nat) (v : Int) (s : State) : (s.writeNear a v).powerUps = s.powerUps := rfl
@[simp] theorem State.writeNear_resetPin (a : Nat) (v : Int) (s : State) : (s.writeNear a v).resetPin = s.resetPin := rfl
@[simp] theorem State.writeNear_run (a : Nat) (v : Int) (s : State) : (s.writeNear a v).run = s.run := rfl
@[simp] theorem State.writeNear_instances (a : Nat) (v : Int) (s : State) : (s.writeNear a v).instances = s.instances := rfl
@[simp] theorem State.writeNear_queue (a : Nat) (v : Int) (s : State) : (s.writeNear a v).queue = s.queue := rfl
@[simp] theorem State.writeNear_spill (a : Nat) (v : Int) (s : State) : (s.writeNear a v).spill = s.spill := rfl
@[simp] theorem State.writeNear_library (a : Nat) (v : Int) (s : State) : (s.writeNear a v).library = s.library := rfl
@[simp] theorem State.writeNear_tempo (a : Nat) (v : Int) (s : State) : (s.writeNear a v).tempo = s.tempo := rfl
@[simp] theorem State.writeNear_cue (a : Nat) (v : Int) (s : State) : (s.writeNear a v).cue = s.cue := rfl
@[simp] theorem State.writeNear_near (a : Nat) (v : Int) (s : State) :
    (s.writeNear a v).near = cellPut a (BitVec.ofInt 24 v) s.near := rfl
@[simp] theorem State.writeNear_dram (a : Nat) (v : Int) (s : State) : (s.writeNear a v).dram = s.dram := rfl
@[simp] theorem State.writeNear_corrections (a : Nat) (v : Int) (s : State) :
    (s.writeNear a v).corrections = s.corrections := rfl
@[simp] theorem State.writeNear_errors (a : Nat) (v : Int) (s : State) : (s.writeNear a v).errors = s.errors := rfl
@[simp] theorem State.writeNear_access (a : Nat) (v : Int) (s : State) : (s.writeNear a v).access = s.access := rfl
@[simp] theorem State.writeNear_serviceDue (a : Nat) (v : Int) (s : State) :
    (s.writeNear a v).serviceDue = s.serviceDue := rfl
@[simp] theorem State.writeNear_ports (a : Nat) (v : Int) (s : State) : (s.writeNear a v).ports = s.ports := rfl
@[simp] theorem State.writeNear_monitor (a : Nat) (v : Int) (s : State) : (s.writeNear a v).monitor = s.monitor := rfl
@[simp] theorem State.writeNear_link (a : Nat) (v : Int) (s : State) : (s.writeNear a v).link = s.link := rfl
@[simp] theorem State.writeNear_notices (a : Nat) (v : Int) (s : State) : (s.writeNear a v).notices = s.notices := rfl

/-! ### writeDram -/

@[simp] theorem State.writeDram_pending (a : Nat) (v : Int) (s : State) : (s.writeDram a v).pending = s.pending := rfl
@[simp] theorem State.writeDram_powerUps (a : Nat) (v : Int) (s : State) : (s.writeDram a v).powerUps = s.powerUps := rfl
@[simp] theorem State.writeDram_resetPin (a : Nat) (v : Int) (s : State) : (s.writeDram a v).resetPin = s.resetPin := rfl
@[simp] theorem State.writeDram_run (a : Nat) (v : Int) (s : State) : (s.writeDram a v).run = s.run := rfl
@[simp] theorem State.writeDram_instances (a : Nat) (v : Int) (s : State) : (s.writeDram a v).instances = s.instances := rfl
@[simp] theorem State.writeDram_queue (a : Nat) (v : Int) (s : State) : (s.writeDram a v).queue = s.queue := rfl
@[simp] theorem State.writeDram_spill (a : Nat) (v : Int) (s : State) : (s.writeDram a v).spill = s.spill := rfl
@[simp] theorem State.writeDram_library (a : Nat) (v : Int) (s : State) : (s.writeDram a v).library = s.library := rfl
@[simp] theorem State.writeDram_tempo (a : Nat) (v : Int) (s : State) : (s.writeDram a v).tempo = s.tempo := rfl
@[simp] theorem State.writeDram_cue (a : Nat) (v : Int) (s : State) : (s.writeDram a v).cue = s.cue := rfl
@[simp] theorem State.writeDram_near (a : Nat) (v : Int) (s : State) : (s.writeDram a v).near = s.near := rfl
@[simp] theorem State.writeDram_dram (a : Nat) (v : Int) (s : State) :
    (s.writeDram a v).dram = cellPut a (validWord v) s.dram := rfl
@[simp] theorem State.writeDram_corrections (a : Nat) (v : Int) (s : State) :
    (s.writeDram a v).corrections = s.corrections := rfl
@[simp] theorem State.writeDram_errors (a : Nat) (v : Int) (s : State) : (s.writeDram a v).errors = s.errors := rfl
@[simp] theorem State.writeDram_access (a : Nat) (v : Int) (s : State) : (s.writeDram a v).access = s.access := rfl
@[simp] theorem State.writeDram_serviceDue (a : Nat) (v : Int) (s : State) :
    (s.writeDram a v).serviceDue = s.serviceDue := rfl
@[simp] theorem State.writeDram_ports (a : Nat) (v : Int) (s : State) : (s.writeDram a v).ports = s.ports := rfl
@[simp] theorem State.writeDram_monitor (a : Nat) (v : Int) (s : State) : (s.writeDram a v).monitor = s.monitor := rfl
@[simp] theorem State.writeDram_link (a : Nat) (v : Int) (s : State) : (s.writeDram a v).link = s.link := rfl
@[simp] theorem State.writeDram_notices (a : Nat) (v : Int) (s : State) : (s.writeDram a v).notices = s.notices := rfl

/-! ### cancelWriteBack -/

@[simp] theorem State.cancelWriteBack_pending (a : Nat) (s : State) : (s.cancelWriteBack a).pending = s.pending := rfl
@[simp] theorem State.cancelWriteBack_powerUps (a : Nat) (s : State) : (s.cancelWriteBack a).powerUps = s.powerUps := rfl
@[simp] theorem State.cancelWriteBack_resetPin (a : Nat) (s : State) : (s.cancelWriteBack a).resetPin = s.resetPin := rfl
@[simp] theorem State.cancelWriteBack_run (a : Nat) (s : State) : (s.cancelWriteBack a).run = s.run := rfl
@[simp] theorem State.cancelWriteBack_instances (a : Nat) (s : State) : (s.cancelWriteBack a).instances = s.instances := rfl
@[simp] theorem State.cancelWriteBack_queue (a : Nat) (s : State) : (s.cancelWriteBack a).queue = s.queue := rfl
@[simp] theorem State.cancelWriteBack_spill (a : Nat) (s : State) : (s.cancelWriteBack a).spill = s.spill := rfl
@[simp] theorem State.cancelWriteBack_library (a : Nat) (s : State) : (s.cancelWriteBack a).library = s.library := rfl
@[simp] theorem State.cancelWriteBack_tempo (a : Nat) (s : State) : (s.cancelWriteBack a).tempo = s.tempo := rfl
@[simp] theorem State.cancelWriteBack_cue (a : Nat) (s : State) : (s.cancelWriteBack a).cue = s.cue := rfl
@[simp] theorem State.cancelWriteBack_near (a : Nat) (s : State) : (s.cancelWriteBack a).near = s.near := rfl
@[simp] theorem State.cancelWriteBack_dram (a : Nat) (s : State) : (s.cancelWriteBack a).dram = s.dram := rfl
@[simp] theorem State.cancelWriteBack_corrections (a : Nat) (s : State) :
    (s.cancelWriteBack a).corrections = s.corrections.filter fun e => e.addr != a := rfl
@[simp] theorem State.cancelWriteBack_errors (a : Nat) (s : State) : (s.cancelWriteBack a).errors = s.errors := rfl
@[simp] theorem State.cancelWriteBack_access (a : Nat) (s : State) : (s.cancelWriteBack a).access = s.access := rfl
@[simp] theorem State.cancelWriteBack_serviceDue (a : Nat) (s : State) :
    (s.cancelWriteBack a).serviceDue = s.serviceDue := rfl
@[simp] theorem State.cancelWriteBack_ports (a : Nat) (s : State) : (s.cancelWriteBack a).ports = s.ports := rfl
@[simp] theorem State.cancelWriteBack_monitor (a : Nat) (s : State) : (s.cancelWriteBack a).monitor = s.monitor := rfl
@[simp] theorem State.cancelWriteBack_link (a : Nat) (s : State) : (s.cancelWriteBack a).link = s.link := rfl
@[simp] theorem State.cancelWriteBack_notices (a : Nat) (s : State) : (s.cancelWriteBack a).notices = s.notices := rfl

/-! ### countCorrected -/

@[simp] theorem State.countCorrected_pending (a : Nat) (s : State) : (s.countCorrected a).pending = s.pending := rfl
@[simp] theorem State.countCorrected_powerUps (a : Nat) (s : State) : (s.countCorrected a).powerUps = s.powerUps := rfl
@[simp] theorem State.countCorrected_resetPin (a : Nat) (s : State) : (s.countCorrected a).resetPin = s.resetPin := rfl
@[simp] theorem State.countCorrected_run (a : Nat) (s : State) : (s.countCorrected a).run = s.run := rfl
@[simp] theorem State.countCorrected_instances (a : Nat) (s : State) : (s.countCorrected a).instances = s.instances := rfl
@[simp] theorem State.countCorrected_queue (a : Nat) (s : State) : (s.countCorrected a).queue = s.queue := rfl
@[simp] theorem State.countCorrected_spill (a : Nat) (s : State) : (s.countCorrected a).spill = s.spill := rfl
@[simp] theorem State.countCorrected_library (a : Nat) (s : State) : (s.countCorrected a).library = s.library := rfl
@[simp] theorem State.countCorrected_tempo (a : Nat) (s : State) : (s.countCorrected a).tempo = s.tempo := rfl
@[simp] theorem State.countCorrected_cue (a : Nat) (s : State) : (s.countCorrected a).cue = s.cue := rfl
@[simp] theorem State.countCorrected_near (a : Nat) (s : State) : (s.countCorrected a).near = s.near := rfl
@[simp] theorem State.countCorrected_dram (a : Nat) (s : State) : (s.countCorrected a).dram = s.dram := rfl
@[simp] theorem State.countCorrected_corrections (a : Nat) (s : State) :
    (s.countCorrected a).corrections = s.corrections := rfl
@[simp] theorem State.countCorrected_errors (a : Nat) (s : State) :
    (s.countCorrected a).errors = { s.errors with corrected := satCount s.errors.corrected, lastCorrected := some (s.location a) } := rfl
@[simp] theorem State.countCorrected_access (a : Nat) (s : State) : (s.countCorrected a).access = s.access := rfl
@[simp] theorem State.countCorrected_serviceDue (a : Nat) (s : State) : (s.countCorrected a).serviceDue = s.serviceDue := rfl
@[simp] theorem State.countCorrected_ports (a : Nat) (s : State) : (s.countCorrected a).ports = s.ports := rfl
@[simp] theorem State.countCorrected_monitor (a : Nat) (s : State) : (s.countCorrected a).monitor = s.monitor := rfl
@[simp] theorem State.countCorrected_link (a : Nat) (s : State) : (s.countCorrected a).link = s.link := rfl
@[simp] theorem State.countCorrected_notices (a : Nat) (s : State) :
    (s.countCorrected a).notices = s.notices.raise (.corrected (s.location a)) := rfl

/-! ### countUncorrectable -/

@[simp] theorem State.countUncorrectable_pending (a : Nat) (s : State) : (s.countUncorrectable a).pending = s.pending := rfl
@[simp] theorem State.countUncorrectable_powerUps (a : Nat) (s : State) :
    (s.countUncorrectable a).powerUps = s.powerUps := rfl
@[simp] theorem State.countUncorrectable_resetPin (a : Nat) (s : State) :
    (s.countUncorrectable a).resetPin = s.resetPin := rfl
@[simp] theorem State.countUncorrectable_run (a : Nat) (s : State) : (s.countUncorrectable a).run = s.run := rfl
@[simp] theorem State.countUncorrectable_instances (a : Nat) (s : State) :
    (s.countUncorrectable a).instances = s.instances := rfl
@[simp] theorem State.countUncorrectable_queue (a : Nat) (s : State) : (s.countUncorrectable a).queue = s.queue := rfl
@[simp] theorem State.countUncorrectable_spill (a : Nat) (s : State) : (s.countUncorrectable a).spill = s.spill := rfl
@[simp] theorem State.countUncorrectable_library (a : Nat) (s : State) : (s.countUncorrectable a).library = s.library := rfl
@[simp] theorem State.countUncorrectable_tempo (a : Nat) (s : State) : (s.countUncorrectable a).tempo = s.tempo := rfl
@[simp] theorem State.countUncorrectable_cue (a : Nat) (s : State) : (s.countUncorrectable a).cue = s.cue := rfl
@[simp] theorem State.countUncorrectable_near (a : Nat) (s : State) : (s.countUncorrectable a).near = s.near := rfl
@[simp] theorem State.countUncorrectable_dram (a : Nat) (s : State) : (s.countUncorrectable a).dram = s.dram := rfl
@[simp] theorem State.countUncorrectable_corrections (a : Nat) (s : State) :
    (s.countUncorrectable a).corrections = s.corrections := rfl
@[simp] theorem State.countUncorrectable_access (a : Nat) (s : State) : (s.countUncorrectable a).access = s.access := rfl
@[simp] theorem State.countUncorrectable_serviceDue (a : Nat) (s : State) :
    (s.countUncorrectable a).serviceDue = s.serviceDue := rfl
@[simp] theorem State.countUncorrectable_ports (a : Nat) (s : State) : (s.countUncorrectable a).ports = s.ports := rfl
@[simp] theorem State.countUncorrectable_monitor (a : Nat) (s : State) : (s.countUncorrectable a).monitor = s.monitor := rfl
@[simp] theorem State.countUncorrectable_link (a : Nat) (s : State) : (s.countUncorrectable a).link = s.link := rfl
@[simp] theorem State.countUncorrectable_notices (a : Nat) (s : State) :
    (s.countUncorrectable a).notices = s.notices.raise (.uncorrectable (s.location a)) := rfl

/-! ### place -/

@[simp] theorem State.place_pending (r : Reply) (s : State) : (s.place r).pending = s.pending := rfl
@[simp] theorem State.place_powerUps (r : Reply) (s : State) : (s.place r).powerUps = s.powerUps := rfl
@[simp] theorem State.place_resetPin (r : Reply) (s : State) : (s.place r).resetPin = s.resetPin := rfl
@[simp] theorem State.place_run (r : Reply) (s : State) : (s.place r).run = s.run := rfl
@[simp] theorem State.place_instances (r : Reply) (s : State) : (s.place r).instances = s.instances := rfl
@[simp] theorem State.place_queue (r : Reply) (s : State) : (s.place r).queue = s.queue := rfl
@[simp] theorem State.place_spill (r : Reply) (s : State) : (s.place r).spill = s.spill := rfl
@[simp] theorem State.place_library (r : Reply) (s : State) : (s.place r).library = s.library := rfl
@[simp] theorem State.place_tempo (r : Reply) (s : State) : (s.place r).tempo = s.tempo := rfl
@[simp] theorem State.place_cue (r : Reply) (s : State) : (s.place r).cue = s.cue := rfl
@[simp] theorem State.place_near (r : Reply) (s : State) : (s.place r).near = s.near := rfl
@[simp] theorem State.place_dram (r : Reply) (s : State) : (s.place r).dram = s.dram := rfl
@[simp] theorem State.place_corrections (r : Reply) (s : State) : (s.place r).corrections = s.corrections := rfl
@[simp] theorem State.place_errors (r : Reply) (s : State) : (s.place r).errors = s.errors := rfl
@[simp] theorem State.place_access (r : Reply) (s : State) : (s.place r).access = s.access := rfl
@[simp] theorem State.place_serviceDue (r : Reply) (s : State) : (s.place r).serviceDue = s.serviceDue := rfl
@[simp] theorem State.place_ports (r : Reply) (s : State) : (s.place r).ports = s.ports := rfl
@[simp] theorem State.place_monitor (r : Reply) (s : State) : (s.place r).monitor = s.monitor := rfl
@[simp] theorem State.place_link (r : Reply) (s : State) :
    (s.place r).link = { s.link with reserved := s.link.reserved - 1, sendOrder := s.link.sendOrder ++ [r] } := rfl
@[simp] theorem State.place_notices (r : Reply) (s : State) : (s.place r).notices = s.notices := rfl

/-! ### answer -/

@[simp] theorem State.answer_pending (f : Frame) (st : Status) (b : List Byte) (s : State) :
    (s.answer f st b).pending = s.pending := rfl
@[simp] theorem State.answer_powerUps (f : Frame) (st : Status) (b : List Byte) (s : State) :
    (s.answer f st b).powerUps = s.powerUps := rfl
@[simp] theorem State.answer_resetPin (f : Frame) (st : Status) (b : List Byte) (s : State) :
    (s.answer f st b).resetPin = s.resetPin := rfl
@[simp] theorem State.answer_run (f : Frame) (st : Status) (b : List Byte) (s : State) : (s.answer f st b).run = s.run := rfl
@[simp] theorem State.answer_instances (f : Frame) (st : Status) (b : List Byte) (s : State) :
    (s.answer f st b).instances = s.instances := rfl
@[simp] theorem State.answer_queue (f : Frame) (st : Status) (b : List Byte) (s : State) :
    (s.answer f st b).queue = s.queue := rfl
@[simp] theorem State.answer_spill (f : Frame) (st : Status) (b : List Byte) (s : State) :
    (s.answer f st b).spill = s.spill := rfl
@[simp] theorem State.answer_library (f : Frame) (st : Status) (b : List Byte) (s : State) :
    (s.answer f st b).library = s.library := rfl
@[simp] theorem State.answer_tempo (f : Frame) (st : Status) (b : List Byte) (s : State) :
    (s.answer f st b).tempo = s.tempo := rfl
@[simp] theorem State.answer_cue (f : Frame) (st : Status) (b : List Byte) (s : State) : (s.answer f st b).cue = s.cue := rfl
@[simp] theorem State.answer_near (f : Frame) (st : Status) (b : List Byte) (s : State) :
    (s.answer f st b).near = s.near := rfl
@[simp] theorem State.answer_dram (f : Frame) (st : Status) (b : List Byte) (s : State) :
    (s.answer f st b).dram = s.dram := rfl
@[simp] theorem State.answer_corrections (f : Frame) (st : Status) (b : List Byte) (s : State) :
    (s.answer f st b).corrections = s.corrections := rfl
@[simp] theorem State.answer_errors (f : Frame) (st : Status) (b : List Byte) (s : State) :
    (s.answer f st b).errors = s.errors := rfl
@[simp] theorem State.answer_access (f : Frame) (st : Status) (b : List Byte) (s : State) :
    (s.answer f st b).access = s.access := rfl
@[simp] theorem State.answer_serviceDue (f : Frame) (st : Status) (b : List Byte) (s : State) :
    (s.answer f st b).serviceDue = s.serviceDue := rfl
@[simp] theorem State.answer_ports (f : Frame) (st : Status) (b : List Byte) (s : State) :
    (s.answer f st b).ports = s.ports := rfl
@[simp] theorem State.answer_monitor (f : Frame) (st : Status) (b : List Byte) (s : State) :
    (s.answer f st b).monitor = s.monitor := rfl
@[simp] theorem State.answer_link (f : Frame) (st : Status) (b : List Byte) (s : State) :
    (s.answer f st b).link = { s.link with reserved := s.link.reserved - 1, sendOrder := s.link.sendOrder ++ [⟨f.tag, replyKind f.kind, st, b⟩] } := rfl
@[simp] theorem State.answer_notices (f : Frame) (st : Status) (b : List Byte) (s : State) :
    (s.answer f st b).notices = s.notices := rfl

/-! ### setReceiver -/

@[simp] theorem State.setReceiver_pending (r : Receiver) (s : State) : (s.setReceiver r).pending = s.pending := rfl
@[simp] theorem State.setReceiver_powerUps (r : Receiver) (s : State) : (s.setReceiver r).powerUps = s.powerUps := rfl
@[simp] theorem State.setReceiver_resetPin (r : Receiver) (s : State) : (s.setReceiver r).resetPin = s.resetPin := rfl
@[simp] theorem State.setReceiver_run (r : Receiver) (s : State) : (s.setReceiver r).run = s.run := rfl
@[simp] theorem State.setReceiver_instances (r : Receiver) (s : State) : (s.setReceiver r).instances = s.instances := rfl
@[simp] theorem State.setReceiver_queue (r : Receiver) (s : State) : (s.setReceiver r).queue = s.queue := rfl
@[simp] theorem State.setReceiver_spill (r : Receiver) (s : State) : (s.setReceiver r).spill = s.spill := rfl
@[simp] theorem State.setReceiver_library (r : Receiver) (s : State) : (s.setReceiver r).library = s.library := rfl
@[simp] theorem State.setReceiver_tempo (r : Receiver) (s : State) : (s.setReceiver r).tempo = s.tempo := rfl
@[simp] theorem State.setReceiver_cue (r : Receiver) (s : State) : (s.setReceiver r).cue = s.cue := rfl
@[simp] theorem State.setReceiver_near (r : Receiver) (s : State) : (s.setReceiver r).near = s.near := rfl
@[simp] theorem State.setReceiver_dram (r : Receiver) (s : State) : (s.setReceiver r).dram = s.dram := rfl
@[simp] theorem State.setReceiver_corrections (r : Receiver) (s : State) :
    (s.setReceiver r).corrections = s.corrections := rfl
@[simp] theorem State.setReceiver_errors (r : Receiver) (s : State) : (s.setReceiver r).errors = s.errors := rfl
@[simp] theorem State.setReceiver_access (r : Receiver) (s : State) : (s.setReceiver r).access = s.access := rfl
@[simp] theorem State.setReceiver_serviceDue (r : Receiver) (s : State) : (s.setReceiver r).serviceDue = s.serviceDue := rfl
@[simp] theorem State.setReceiver_ports (r : Receiver) (s : State) : (s.setReceiver r).ports = s.ports := rfl
@[simp] theorem State.setReceiver_monitor (r : Receiver) (s : State) : (s.setReceiver r).monitor = s.monitor := rfl
@[simp] theorem State.setReceiver_link (r : Receiver) (s : State) :
    (s.setReceiver r).link = { s.link with receiver := r } := rfl
@[simp] theorem State.setReceiver_notices (r : Receiver) (s : State) : (s.setReceiver r).notices = s.notices := rfl

/-! ### modMonitor -/

@[simp] theorem State.modMonitor_pending (g : Monitor → Monitor) (s : State) : (s.modMonitor g).pending = s.pending := rfl
@[simp] theorem State.modMonitor_powerUps (g : Monitor → Monitor) (s : State) : (s.modMonitor g).powerUps = s.powerUps := rfl
@[simp] theorem State.modMonitor_resetPin (g : Monitor → Monitor) (s : State) : (s.modMonitor g).resetPin = s.resetPin := rfl
@[simp] theorem State.modMonitor_run (g : Monitor → Monitor) (s : State) : (s.modMonitor g).run = s.run := rfl
@[simp] theorem State.modMonitor_instances (g : Monitor → Monitor) (s : State) :
    (s.modMonitor g).instances = s.instances := rfl
@[simp] theorem State.modMonitor_queue (g : Monitor → Monitor) (s : State) : (s.modMonitor g).queue = s.queue := rfl
@[simp] theorem State.modMonitor_spill (g : Monitor → Monitor) (s : State) : (s.modMonitor g).spill = s.spill := rfl
@[simp] theorem State.modMonitor_library (g : Monitor → Monitor) (s : State) : (s.modMonitor g).library = s.library := rfl
@[simp] theorem State.modMonitor_tempo (g : Monitor → Monitor) (s : State) : (s.modMonitor g).tempo = s.tempo := rfl
@[simp] theorem State.modMonitor_cue (g : Monitor → Monitor) (s : State) : (s.modMonitor g).cue = s.cue := rfl
@[simp] theorem State.modMonitor_near (g : Monitor → Monitor) (s : State) : (s.modMonitor g).near = s.near := rfl
@[simp] theorem State.modMonitor_dram (g : Monitor → Monitor) (s : State) : (s.modMonitor g).dram = s.dram := rfl
@[simp] theorem State.modMonitor_corrections (g : Monitor → Monitor) (s : State) :
    (s.modMonitor g).corrections = s.corrections := rfl
@[simp] theorem State.modMonitor_errors (g : Monitor → Monitor) (s : State) : (s.modMonitor g).errors = s.errors := rfl
@[simp] theorem State.modMonitor_access (g : Monitor → Monitor) (s : State) : (s.modMonitor g).access = s.access := rfl
@[simp] theorem State.modMonitor_serviceDue (g : Monitor → Monitor) (s : State) :
    (s.modMonitor g).serviceDue = s.serviceDue := rfl
@[simp] theorem State.modMonitor_ports (g : Monitor → Monitor) (s : State) : (s.modMonitor g).ports = s.ports := rfl
@[simp] theorem State.modMonitor_monitor (g : Monitor → Monitor) (s : State) : (s.modMonitor g).monitor = g s.monitor := rfl
@[simp] theorem State.modMonitor_link (g : Monitor → Monitor) (s : State) : (s.modMonitor g).link = s.link := rfl
@[simp] theorem State.modMonitor_notices (g : Monitor → Monitor) (s : State) : (s.modMonitor g).notices = s.notices := rfl

/-! ### setLibSlot -/

@[simp] theorem State.setLibSlot_pending (k : SlotNo) (x : LibSlot) (s : State) :
    (s.setLibSlot k x).pending = s.pending := rfl
@[simp] theorem State.setLibSlot_powerUps (k : SlotNo) (x : LibSlot) (s : State) :
    (s.setLibSlot k x).powerUps = s.powerUps := rfl
@[simp] theorem State.setLibSlot_resetPin (k : SlotNo) (x : LibSlot) (s : State) :
    (s.setLibSlot k x).resetPin = s.resetPin := rfl
@[simp] theorem State.setLibSlot_run (k : SlotNo) (x : LibSlot) (s : State) : (s.setLibSlot k x).run = s.run := rfl
@[simp] theorem State.setLibSlot_instances (k : SlotNo) (x : LibSlot) (s : State) :
    (s.setLibSlot k x).instances = s.instances := rfl
@[simp] theorem State.setLibSlot_queue (k : SlotNo) (x : LibSlot) (s : State) : (s.setLibSlot k x).queue = s.queue := rfl
@[simp] theorem State.setLibSlot_spill (k : SlotNo) (x : LibSlot) (s : State) : (s.setLibSlot k x).spill = s.spill := rfl
@[simp] theorem State.setLibSlot_library (k : SlotNo) (x : LibSlot) (s : State) :
    (s.setLibSlot k x).library = s.library.set k.val x k.isLt := rfl
@[simp] theorem State.setLibSlot_tempo (k : SlotNo) (x : LibSlot) (s : State) : (s.setLibSlot k x).tempo = s.tempo := rfl
@[simp] theorem State.setLibSlot_cue (k : SlotNo) (x : LibSlot) (s : State) : (s.setLibSlot k x).cue = s.cue := rfl
@[simp] theorem State.setLibSlot_near (k : SlotNo) (x : LibSlot) (s : State) : (s.setLibSlot k x).near = s.near := rfl
@[simp] theorem State.setLibSlot_dram (k : SlotNo) (x : LibSlot) (s : State) : (s.setLibSlot k x).dram = s.dram := rfl
@[simp] theorem State.setLibSlot_corrections (k : SlotNo) (x : LibSlot) (s : State) :
    (s.setLibSlot k x).corrections = s.corrections := rfl
@[simp] theorem State.setLibSlot_errors (k : SlotNo) (x : LibSlot) (s : State) : (s.setLibSlot k x).errors = s.errors := rfl
@[simp] theorem State.setLibSlot_access (k : SlotNo) (x : LibSlot) (s : State) : (s.setLibSlot k x).access = s.access := rfl
@[simp] theorem State.setLibSlot_serviceDue (k : SlotNo) (x : LibSlot) (s : State) :
    (s.setLibSlot k x).serviceDue = s.serviceDue := rfl
@[simp] theorem State.setLibSlot_ports (k : SlotNo) (x : LibSlot) (s : State) : (s.setLibSlot k x).ports = s.ports := rfl
@[simp] theorem State.setLibSlot_monitor (k : SlotNo) (x : LibSlot) (s : State) :
    (s.setLibSlot k x).monitor = s.monitor := rfl
@[simp] theorem State.setLibSlot_link (k : SlotNo) (x : LibSlot) (s : State) : (s.setLibSlot k x).link = s.link := rfl
@[simp] theorem State.setLibSlot_notices (k : SlotNo) (x : LibSlot) (s : State) :
    (s.setLibSlot k x).notices = s.notices := rfl

/-! ### replied -/

@[simp] theorem State.replied_pending (f : Frame) (rest : List Frame) (st : Status) (b : List Byte) (s : State) :
    (s.replied f rest st b).pending = s.pending := rfl
@[simp] theorem State.replied_powerUps (f : Frame) (rest : List Frame) (st : Status) (b : List Byte) (s : State) :
    (s.replied f rest st b).powerUps = s.powerUps := rfl
@[simp] theorem State.replied_resetPin (f : Frame) (rest : List Frame) (st : Status) (b : List Byte) (s : State) :
    (s.replied f rest st b).resetPin = s.resetPin := rfl
@[simp] theorem State.replied_run (f : Frame) (rest : List Frame) (st : Status) (b : List Byte) (s : State) :
    (s.replied f rest st b).run = s.run := rfl
@[simp] theorem State.replied_instances (f : Frame) (rest : List Frame) (st : Status) (b : List Byte) (s : State) :
    (s.replied f rest st b).instances = s.instances := rfl
@[simp] theorem State.replied_queue (f : Frame) (rest : List Frame) (st : Status) (b : List Byte) (s : State) :
    (s.replied f rest st b).queue = s.queue := rfl
@[simp] theorem State.replied_spill (f : Frame) (rest : List Frame) (st : Status) (b : List Byte) (s : State) :
    (s.replied f rest st b).spill = s.spill := rfl
@[simp] theorem State.replied_library (f : Frame) (rest : List Frame) (st : Status) (b : List Byte) (s : State) :
    (s.replied f rest st b).library = s.library := rfl
@[simp] theorem State.replied_tempo (f : Frame) (rest : List Frame) (st : Status) (b : List Byte) (s : State) :
    (s.replied f rest st b).tempo = s.tempo := rfl
@[simp] theorem State.replied_cue (f : Frame) (rest : List Frame) (st : Status) (b : List Byte) (s : State) :
    (s.replied f rest st b).cue = s.cue := rfl
@[simp] theorem State.replied_near (f : Frame) (rest : List Frame) (st : Status) (b : List Byte) (s : State) :
    (s.replied f rest st b).near = s.near := rfl
@[simp] theorem State.replied_dram (f : Frame) (rest : List Frame) (st : Status) (b : List Byte) (s : State) :
    (s.replied f rest st b).dram = s.dram := rfl
@[simp] theorem State.replied_corrections (f : Frame) (rest : List Frame) (st : Status) (b : List Byte) (s : State) :
    (s.replied f rest st b).corrections = s.corrections := rfl
@[simp] theorem State.replied_errors (f : Frame) (rest : List Frame) (st : Status) (b : List Byte) (s : State) :
    (s.replied f rest st b).errors = s.errors := rfl
@[simp] theorem State.replied_access (f : Frame) (rest : List Frame) (st : Status) (b : List Byte) (s : State) :
    (s.replied f rest st b).access = s.access := rfl
@[simp] theorem State.replied_serviceDue (f : Frame) (rest : List Frame) (st : Status) (b : List Byte) (s : State) :
    (s.replied f rest st b).serviceDue = s.serviceDue := rfl
@[simp] theorem State.replied_ports (f : Frame) (rest : List Frame) (st : Status) (b : List Byte) (s : State) :
    (s.replied f rest st b).ports = s.ports := rfl
@[simp] theorem State.replied_monitor (f : Frame) (rest : List Frame) (st : Status) (b : List Byte) (s : State) :
    (s.replied f rest st b).monitor = s.monitor := rfl
@[simp] theorem State.replied_notices (f : Frame) (rest : List Frame) (st : Status) (b : List Byte) (s : State) :
    (s.replied f rest st b).notices = s.notices := rfl

/-! ### takenInFlight -/

@[simp] theorem State.takenInFlight_pending (rest : List Frame) (s : State) :
    (s.takenInFlight rest).pending = s.pending := rfl
@[simp] theorem State.takenInFlight_powerUps (rest : List Frame) (s : State) :
    (s.takenInFlight rest).powerUps = s.powerUps := rfl
@[simp] theorem State.takenInFlight_resetPin (rest : List Frame) (s : State) :
    (s.takenInFlight rest).resetPin = s.resetPin := rfl
@[simp] theorem State.takenInFlight_run (rest : List Frame) (s : State) : (s.takenInFlight rest).run = s.run := rfl
@[simp] theorem State.takenInFlight_instances (rest : List Frame) (s : State) :
    (s.takenInFlight rest).instances = s.instances := rfl
@[simp] theorem State.takenInFlight_queue (rest : List Frame) (s : State) : (s.takenInFlight rest).queue = s.queue := rfl
@[simp] theorem State.takenInFlight_spill (rest : List Frame) (s : State) : (s.takenInFlight rest).spill = s.spill := rfl
@[simp] theorem State.takenInFlight_library (rest : List Frame) (s : State) :
    (s.takenInFlight rest).library = s.library := rfl
@[simp] theorem State.takenInFlight_tempo (rest : List Frame) (s : State) : (s.takenInFlight rest).tempo = s.tempo := rfl
@[simp] theorem State.takenInFlight_cue (rest : List Frame) (s : State) : (s.takenInFlight rest).cue = s.cue := rfl
@[simp] theorem State.takenInFlight_near (rest : List Frame) (s : State) : (s.takenInFlight rest).near = s.near := rfl
@[simp] theorem State.takenInFlight_dram (rest : List Frame) (s : State) : (s.takenInFlight rest).dram = s.dram := rfl
@[simp] theorem State.takenInFlight_corrections (rest : List Frame) (s : State) :
    (s.takenInFlight rest).corrections = s.corrections := rfl
@[simp] theorem State.takenInFlight_errors (rest : List Frame) (s : State) : (s.takenInFlight rest).errors = s.errors := rfl
@[simp] theorem State.takenInFlight_access (rest : List Frame) (s : State) : (s.takenInFlight rest).access = s.access := rfl
@[simp] theorem State.takenInFlight_serviceDue (rest : List Frame) (s : State) :
    (s.takenInFlight rest).serviceDue = s.serviceDue := rfl
@[simp] theorem State.takenInFlight_ports (rest : List Frame) (s : State) : (s.takenInFlight rest).ports = s.ports := rfl
@[simp] theorem State.takenInFlight_monitor (rest : List Frame) (s : State) :
    (s.takenInFlight rest).monitor = s.monitor := rfl
@[simp] theorem State.takenInFlight_notices (rest : List Frame) (s : State) :
    (s.takenInFlight rest).notices = s.notices := rfl

/-! ### The instance table -/

/-- An instance's context after it is replaced. -/
@[simp] theorem State.setInst_inst_self (i : InstNo) (x : Inst) (s : State) : (s.setInst i x).inst i = x := by
  simp [State.inst]

/-- Another instance's context after one is replaced. -/
theorem State.setInst_inst_ne {i j : InstNo} (h : j ≠ i) (x : Inst) (s : State) : (s.setInst i x).inst j = s.inst j := by
  have : i.val ≠ j.val := fun e => h (Fin.ext e.symm)
  simp [State.inst, Vector.getElem_set_ne, this]

/-- Any instance's context after one is replaced. -/
theorem State.setInst_inst (i j : InstNo) (x : Inst) (s : State) :
    (s.setInst i x).inst j = if j = i then x else s.inst j := by
  split
  · next h => subst h; simp
  · next h => exact State.setInst_inst_ne h x s

/-- An instance's context after it is changed. -/
@[simp] theorem State.modInst_inst_self (i : InstNo) (g : Inst → Inst) (s : State) :
    (s.modInst i g).inst i = g (s.inst i) := by
  simp [State.modInst]

/-- Another instance's context after one is changed. -/
theorem State.modInst_inst_ne {i j : InstNo} (h : j ≠ i) (g : Inst → Inst) (s : State) :
    (s.modInst i g).inst j = s.inst j :=
  State.setInst_inst_ne h _ s

/-- Any instance's context after one is changed. -/
theorem State.modInst_inst (i j : InstNo) (g : Inst → Inst) (s : State) :
    (s.modInst i g).inst j = if j = i then g (s.inst i) else s.inst j :=
  State.setInst_inst i j _ s

/-- The contexts depend on the instance table alone. -/
theorem State.inst_congr {s t : State} (h : s.instances = t.instances) (i : InstNo) : s.inst i = t.inst i := by
  simp [State.inst, h]

/-! ### The library -/

/-- A library slot after it is replaced. -/
@[simp] theorem State.setLibSlot_libSlot_self (k : SlotNo) (x : LibSlot) (s : State) : (s.setLibSlot k x).libSlot k = x := by
  simp [State.libSlot]

/-- Another library slot after one is replaced. -/
theorem State.setLibSlot_libSlot_ne {k j : SlotNo} (h : j ≠ k) (x : LibSlot) (s : State) :
    (s.setLibSlot k x).libSlot j = s.libSlot j := by
  have : k.val ≠ j.val := fun e => h (Fin.ext e.symm)
  simp [State.libSlot, Vector.getElem_set_ne, this]

end Sys2Proof.Machine
end

