-- ==== Sys2Proof/Laws/Memory.lean ====
section
/-! SUPPORT. The delay memories: reading after writing, and the canonical form that every memory operation keeps. -/

namespace Sys2Proof.Machine

/-! ### Cells -/

/-- A cell reads as last listed, and listing one word leaves every other address as it was. -/
theorem cellGet_cellPut {α : Type} (k : Nat) (v : α) (j : Nat) :
    ∀ cs : List (Nat × α), cellGet (cellPut k v cs) j = if j = k then some v else cellGet cs j
  | [] => by by_cases h : j = k <;> simp [cellPut, cellGet, h]; omega
  | (a, w) :: rest => by
    have ih := cellGet_cellPut k v j rest
    by_cases hlt : k < a
    · by_cases h : j = k
      · simp [cellPut, cellGet, hlt, h]
      · simp [cellPut, cellGet, hlt, h, Ne.symm h]
    · by_cases hk : k = a
      · subst hk
        by_cases h : j = k
        · simp [cellPut, cellGet, h]
        · simp [cellPut, cellGet, h, Ne.symm h]
      · by_cases ha : a = j
        · subst ha; simp [cellPut, cellGet, hlt, hk, Ne.symm hk]
        · simp [cellPut, cellGet, hlt, hk, ha, ih]

/-- Listing a word keeps the addresses rising. -/
theorem cellsRise_cellPut {α : Type} (k : Nat) (v : α) :
    ∀ cs : List (Nat × α), cellsRise cs = true → cellsRise (cellPut k v cs) = true
  | [], _ => rfl
  | [(a, w)], _ => by
    simp only [cellPut]
    split
    · simp [cellsRise, *]
    · split
      · simp [cellsRise]
      · simp only [cellsRise, Bool.and_true, decide_eq_true_eq]; omega
  | (a, w) :: (b, x) :: rest, h => by
    simp only [cellsRise, Bool.and_eq_true, decide_eq_true_eq] at h
    have ih := cellsRise_cellPut k v ((b, x) :: rest) h.2
    simp only [cellPut] at ih ⊢
    split
    · simp_all [cellsRise]
    · split
      · next hk => subst hk; simp_all [cellsRise]
      · split
        · next h3 => simp_all [cellsRise]; omega
        · split
          · next h4 => subst h4; simp_all [cellsRise]
          · simp_all [cellsRise]

/-- Listing a word leaves some word listed. -/
theorem cellPut_ne_nil {α : Type} (k : Nat) (v : α) (cs : List (Nat × α)) : cellPut k v cs ≠ [] := by
  cases cs with
  | nil => simp [cellPut]
  | cons c rest => simp only [cellPut]; split <;> [skip; split] <;> simp

/-! ### Reading after writing -/

/-- The two halves of the canonical form. -/
theorem Memory.wf_iff (s : State) : Memory.wf s = true ↔ cellsRise s.near = true ∧ cellsRise s.dram = true := by
  simp [Memory.wf]

/-- A NEAR word reads as last written; every other one is as it was (R2). -/
theorem State.nearWord_writeNear (a b : Nat) (v : Int) (s : State) :
    (s.writeNear a v).nearWord b = if b = a then BitVec.ofInt 24 v else s.nearWord b := by
  have hc := cellGet_cellPut a (BitVec.ofInt 24 v) b s.near
  simp only [State.nearWord, State.writeNear_near, State.writeNear_powerUps, hc]
  split
  · split <;> simp_all
  · split <;> simp_all

/-- A DRAM word reads as last written, sample and fresh code; every other one is as it was (R149). -/
theorem State.dramWord_writeDram (a b : Nat) (v : Int) (s : State) :
    (s.writeDram a v).dramWord b = if b = a then validWord v else s.dramWord b := by
  have hc := cellGet_cellPut a (validWord v) b s.dram
  simp only [State.dramWord, State.writeDram_dram, State.writeDram_powerUps, hc]
  split
  · split <;> simp_all
  · split <;> simp_all

/-! ### The canonical form is kept -/

/-- A NEAR write keeps the canonical form. -/
theorem Memory.wf_writeNear (a : Nat) (v : Int) {s : State} (h : Memory.wf s = true) : Memory.wf (s.writeNear a v) = true := by
  rw [Memory.wf_iff] at *
  exact ⟨cellsRise_cellPut _ _ _ h.1, h.2⟩

/-- A DRAM write keeps the canonical form. -/
theorem Memory.wf_writeDram (a : Nat) (v : Int) {s : State} (h : Memory.wf s = true) : Memory.wf (s.writeDram a v) = true := by
  rw [Memory.wf_iff] at *
  exact ⟨h.1, cellsRise_cellPut _ _ _ h.2⟩

/-- A word written to either pool keeps the canonical form. -/
theorem Memory.wf_writeWord (p : Pool) (a : Nat) (v : Int) {s : State} (h : Memory.wf s = true) :
    Memory.wf (s.writeWord p a v) = true := by
  cases p with
  | near => exact Memory.wf_writeNear a v h
  | far => exact Memory.wf_writeDram a v (s := s.cancelWriteBack a) h

/-- Bits inverted by the external device keep the canonical form. -/
theorem Memory.wf_upset (u : Upset) {s : State} (h : Memory.wf s = true) : Memory.wf (s.upset u) = true := by
  unfold State.upset
  split
  · rw [Memory.wf_iff] at *
    exact ⟨h.1, cellsRise_cellPut _ _ _ h.2⟩
  · exact h

/-- All the bits inverted before an event keep the canonical form. -/
theorem Memory.wf_upsets (us : List Upset) {s : State} (h : Memory.wf s = true) : Memory.wf (s.upsets us) = true := by
  unfold State.upsets
  induction us generalizing s with
  | nil => exact h
  | cons u us ih => exact ih (Memory.wf_upset u h)

/-- The memories depend on their two lists alone. -/
theorem Memory.wf_congr {s t : State} (hn : s.near = t.near) (hd : s.dram = t.dram) : Memory.wf s = Memory.wf t := by
  simp [Memory.wf, hn, hd]

/-- The line writes of an instance's frame keep the canonical form. -/
theorem Memory.wf_writeLines (ls : List LineRun) : ∀ (accs : List Int) {s : State}, Memory.wf s = true →
    Memory.wf (writeLines ls accs s) = true := by
  induction ls with
  | nil => intro accs s h; unfold writeLines; exact h
  | cons l ls ih =>
    intro accs s h
    cases accs with
    | nil => unfold writeLines; exact h
    | cons acc accs => exact ih accs (Memory.wf_writeWord _ _ _ h)

/-- The four accesses of the sizing check keep the canonical form. -/
theorem Memory.wf_sized (size : FarSize) (us : List Upset) {s : State} (h : Memory.wf s = true) :
    Memory.wf (s.sized size us) = true :=
  Memory.wf_upsets us (Memory.wf_writeDram _ _ (Memory.wf_writeDram _ _ h))

/-- After reset nothing is listed, so the canonical form holds. -/
theorem Memory.wf_of_empty {s : State} (hn : s.near = []) (hd : s.dram = []) : Memory.wf s = true := by
  simp [Memory.wf, hn, hd, cellsRise]

end Sys2Proof.Machine
end

