-- ==== Sys2Proof/Laws/Service.lean ====
section
/-! SUPPORT. The memory service: what the correction queue and the line access operations can do (R154, R155, R163 to R166). -/

namespace Sys2Proof.Machine

/-! ### The correction queue (R154) -/

/-- Everything an offered write-back can do: nothing where its address is queued, an entry at the tail where there is room, else a
drop counted and raised. -/
theorem State.offer_cases (a : Nat) (v : Int) (s : State) :
    (s.corrections.any (fun e => e.addr == a) = true ∧ s.offer a v = s) ∨
    (s.corrections.any (fun e => e.addr == a) = false ∧ s.corrections.length < 8 ∧
      s.offer a v = { s with corrections := s.corrections ++ [⟨a, v⟩] }) ∨
    (s.corrections.any (fun e => e.addr == a) = false ∧ 8 ≤ s.corrections.length ∧
      s.offer a v =
        State.raise (.dropped a) { s with errors := { s.errors with dropped := satCount s.errors.dropped } }) := by
  unfold State.offer correctionCap
  split
  · next h => exact .inl ⟨h, rfl⟩
  · next h =>
    have h : s.corrections.any (fun e => e.addr == a) = false := by simpa using h
    split
    · next hl => exact .inr (.inl ⟨h, hl, rfl⟩)
    · next hl => exact .inr (.inr ⟨h, Nat.le_of_not_lt hl, rfl⟩)

/-- An offer changes the queue, the error record and the notices alone. -/
theorem State.offer_keeps (a : Nat) (v : Int) (s : State) :
    (s.offer a v).run = s.run ∧ (s.offer a v).instances = s.instances ∧ (s.offer a v).near = s.near ∧
      (s.offer a v).dram = s.dram ∧ (s.offer a v).access = s.access ∧ (s.offer a v).link = s.link := by
  obtain ⟨-, h⟩ | ⟨-, -, h⟩ | ⟨-, -, h⟩ := State.offer_cases a v s <;> rw [h] <;> exact ⟨rfl, rfl, rfl, rfl, rfl, rfl⟩

/-- A count stays within 65,535 (R156). -/
theorem satCount_le (n : Nat) : satCount n ≤ 65535 := Nat.min_le_right _ _

/-! ### A word written (R155, R164) -/

/-- A NEAR word written leaves the DRAM and the queue. -/
theorem State.writeWord_near (a : Nat) (v : Int) (s : State) : s.writeWord .near a v = s.writeNear a v := rfl

/-- A FAR word written takes its address off the queue. -/
theorem State.writeWord_far (a : Nat) (v : Int) (s : State) :
    s.writeWord .far a v = (s.cancelWriteBack a).writeDram a v := rfl

/-! ### Ending a line access (R165, R166) -/

/-- The access in flight ends with a reply in its reserved place. -/
theorem State.endAccess_some {a : LineAccess} {s : State} (st : Status) (h : s.access = some a) :
    s.endAccess st = State.place (a.reply st) { s with access := none } := by
  simp [State.endAccess, h]

/-- With no access in flight there is nothing to end. -/
theorem State.endAccess_none {s : State} (st : Status) (h : s.access = none) : s.endAccess st = s := by
  simp [State.endAccess, h]

/-- The access of another instance is not aborted. -/
theorem State.abortAccessOf_other {i : InstNo} {s : State} (h : ∀ a, s.access = some a → a.inst ≠ i) :
    s.abortAccessOf i = s := by
  unfold State.abortAccessOf
  split
  · next a ha => rw [if_neg (h a ha)]
  · rfl

/-- The access of the instance that leaves HELD is aborted (R166). -/
theorem State.abortAccessOf_own {i : InstNo} {a : LineAccess} {s : State} (ha : s.access = some a) (h : a.inst = i) :
    s.abortAccessOf i = State.place (a.reply .aborted) { s with access := none } := by
  simp [State.abortAccessOf, ha, h, State.endAccess]

/-- Ending an access leaves the instance table and the lists. -/
theorem State.abortAccessOf_keeps (i : InstNo) (s : State) :
    (s.abortAccessOf i).instances = s.instances ∧ (s.abortAccessOf i).run = s.run ∧ (s.abortAccessOf i).queue = s.queue ∧
      (s.abortAccessOf i).spill = s.spill ∧ (s.abortAccessOf i).cue = s.cue ∧ (s.abortAccessOf i).near = s.near ∧
      (s.abortAccessOf i).dram = s.dram ∧ (s.abortAccessOf i).notices = s.notices := by
  unfold State.abortAccessOf State.endAccess
  repeat' split
  all_goals exact ⟨rfl, rfl, rfl, rfl, rfl, rfl, rfl, rfl⟩

/-! ### The leftover slots (R159) -/

/-- Slots that find nothing stay idle. -/
theorem serveSlots_idle {s : State} (h : s.slotBusy = false) (n : Nat) : serveSlots n s = s := by
  cases n <;> simp [serveSlots, h]

/-- A slot with a write-back waiting writes the oldest with a fresh code and takes it off the queue (R160). -/
theorem State.serveSlot_writeBack {e : WriteBack} {rest : List WriteBack} {s : State} (h : s.corrections = e :: rest) :
    s.serveSlot = State.writeDram e.addr e.sample { s with corrections := rest } := by
  simp [State.serveSlot, h]

end Sys2Proof.Machine
end

