-- ==== Sys2Proof/Laws/Frames.lean ====
section
/-! SUPPORT. The frame: the lanes' slots, the monitor's passing of time, what the tap engine leaves of the state, and what a frame start
leaves, whole or cut off. -/

namespace Sys2Proof.Machine

/-! ### Lanes and slots (R169) -/

/-- A bit of a chain of lane slots is a bit of one of them. -/
theorem getLsbD_foldl_or {w : Nat} (g : Nat → BitVec w) (i : Nat) : ∀ (l : List Nat) (x : BitVec w),
    (l.foldl (fun x k => x ||| g k) x).getLsbD i = (x.getLsbD i || l.any fun k => (g k).getLsbD i)
  | [], x => by simp
  | k :: l, x => by
    rw [List.foldl_cons, getLsbD_foldl_or g i l, BitVec.getLsbD_or, List.any_cons, Bool.or_assoc]

/-- Slot k of an output lane carries the word of its sample, and no other slot's. -/
theorem laneSlot_outLane (first : Nat) (v : Vector Int 32) {k : Nat} (hk : k < 16) :
    laneSlot (outLane first v) k = slotWord (v.toList.getD (first + k) 0) := by
  apply BitVec.eq_of_getLsbD_eq
  intro i hi
  rw [laneSlot, BitVec.getLsbD_extractLsb', outLane, getLsbD_foldl_or]
  have z : BitVec.getLsbD (0 : LaneFrame) (480 - 32 * k + i) = false := BitVec.getLsbD_zero
  simp only [hi, decide_true, Bool.true_and, z, Bool.false_or]
  rw [Bool.eq_iff_iff, List.any_eq_true]
  constructor
  · rintro ⟨j, hj, hb⟩
    rw [List.mem_range] at hj
    simp only [BitVec.getLsbD_shiftLeft, BitVec.getLsbD_setWidth, Bool.and_eq_true, Bool.not_eq_true', decide_eq_false_iff_not,
      decide_eq_true_eq] at hb
    have hlt := BitVec.lt_of_getLsbD hb.2.2
    have hjk : j = k := by omega
    subst hjk
    have e : 480 - 32 * j + i - (480 - 32 * j) = i := by omega
    rw [e] at hb
    exact hb.2.2
  · intro hb
    refine ⟨k, List.mem_range.mpr hk, ?_⟩
    have e : 480 - 32 * k + i - (480 - 32 * k) = i := by omega
    simp only [BitVec.getLsbD_shiftLeft, BitVec.getLsbD_setWidth, e, hb, Bool.and_true, Bool.and_eq_true, Bool.not_eq_true',
      decide_eq_false_iff_not, decide_eq_true_eq]
    omega

/-- A sample sent in a slot reads back as it was. -/
theorem slotSample_slotWord {v : Int} (h : sampleOk v) : slotSample (slotWord v) = v := by
  have e : (slotWord v).extractLsb' 8 24 = BitVec.ofInt 24 v := by
    apply BitVec.eq_of_getLsbD_eq
    intro i hi
    rw [BitVec.getLsbD_extractLsb', slotWord, BitVec.getLsbD_append]
    simp [hi]
  rw [slotSample, e, BitVec.toInt_ofInt]
  obtain ⟨h1, h2⟩ := h
  simp only [Int.bmod_def]
  omega

/-- An input slot gives a sample of 24 bits. -/
theorem sampleOk_slotSample (x : BitVec 32) : sampleOk (slotSample x) := by
  have h1 := BitVec.le_toInt (x.extractLsb' 8 24)
  have h2 := BitVec.toInt_lt (x := x.extractLsb' 8 24)
  exact ⟨by simpa [slotSample] using h1, by have : (x.extractLsb' 8 24).toInt < 8388608 := by simpa using h2
                                            simp only [slotSample]; omega⟩

/-- The sample of a port is that of its slot of its lane. -/
theorem laneSamples_get (lanes : InputLanes) (k : PortNo) :
    (laneSamples lanes)[k.val] = slotSample (laneSlot (if k.val < 16 then lanes.ain0 else lanes.ain1) (k.val % 16)) := by
  simp [laneSamples]

/-! ### Time passes (R174) -/

@[simp] theorem Monitor.pass_lock (d : Nat) (m : Monitor) : (m.pass d).lock = m.lock := rfl
@[simp] theorem Monitor.pass_good (d : Nat) (m : Monitor) : (m.pass d).good = m.good := rfl
@[simp] theorem Monitor.pass_bad (d : Nat) (m : Monitor) : (m.pass d).bad = m.bad := rfl
@[simp] theorem Monitor.pass_sinceMark (d : Nat) (m : Monitor) : (m.pass d).sinceMark = m.sinceMark.map (· + d) := rfl
@[simp] theorem Monitor.pass_sinceFrame (d : Nat) (m : Monitor) : (m.pass d).sinceFrame = m.sinceFrame + d := rfl

/-- No time leaves the monitor as it is. -/
theorem Monitor.pass_zero (m : Monitor) : m.pass 0 = m := by
  cases m with
  | mk lock good bad mark frame => cases mark <;> rfl

/-! ### An assertion of RESET (R48, R201) -/

@[simp] theorem State.resetAssert_pending (s : State) : s.resetAssert.pending = s.pending := rfl
@[simp] theorem State.resetAssert_powerUps (s : State) : s.resetAssert.powerUps = s.powerUps := rfl
@[simp] theorem State.resetAssert_resetPin (s : State) : s.resetAssert.resetPin = true := rfl
@[simp] theorem State.resetAssert_run (s : State) : s.resetAssert.run = none := rfl
@[simp] theorem State.resetAssert_library (s : State) : s.resetAssert.library = s.library := rfl
@[simp] theorem State.resetAssert_near (s : State) : s.resetAssert.near = s.near := rfl
@[simp] theorem State.resetAssert_dram (s : State) : s.resetAssert.dram = s.dram := rfl

/-! ### What the tap engine leaves -/

/-- Two states that differ in nothing but what the tap engine writes: the delay memories, the correction queue, the error record, the
notices and the instances. -/
structure State.SameBeside (s t : State) : Prop where
  pending    : t.pending = s.pending
  powerUps   : t.powerUps = s.powerUps
  resetPin   : t.resetPin = s.resetPin
  run        : t.run = s.run
  queue      : t.queue = s.queue
  spill      : t.spill = s.spill
  library    : t.library = s.library
  tempo      : t.tempo = s.tempo
  cue        : t.cue = s.cue
  access     : t.access = s.access
  serviceDue : t.serviceDue = s.serviceDue
  ports      : t.ports = s.ports
  monitor    : t.monitor = s.monitor
  link       : t.link = s.link

theorem State.SameBeside.refl (s : State) : s.SameBeside s :=
  ⟨rfl, rfl, rfl, rfl, rfl, rfl, rfl, rfl, rfl, rfl, rfl, rfl, rfl, rfl⟩

theorem State.SameBeside.trans {s t u : State} (h : s.SameBeside t) (g : t.SameBeside u) : s.SameBeside u :=
  ⟨g.1.trans h.1, g.2.trans h.2, g.3.trans h.3, g.4.trans h.4, g.5.trans h.5, g.6.trans h.6, g.7.trans h.7, g.8.trans h.8,
   g.9.trans h.9, g.10.trans h.10, g.11.trans h.11, g.12.trans h.12, g.13.trans h.13, g.14.trans h.14⟩

/-- A checked word counted. -/
theorem sameBeside_countRead (x : ReadOutcome × Option Nat) (s : State) : s.SameBeside (countRead x s) := by
  unfold countRead
  split <;> exact ⟨rfl, rfl, rfl, rfl, rfl, rfl, rfl, rfl, rfl, rfl, rfl, rfl, rfl, rfl⟩

/-- A corrected word offered. -/
theorem sameBeside_offerRead (x : ReadOutcome × Option Nat) (s : State) : s.SameBeside (offerRead x s) := by
  unfold offerRead
  split
  · rename_i v a _ _
    obtain ⟨-, h⟩ | ⟨-, -, h⟩ | ⟨-, -, h⟩ := State.offer_cases a v s <;> rw [h] <;>
      exact ⟨rfl, rfl, rfl, rfl, rfl, rfl, rfl, rfl, rfl, rfl, rfl, rfl, rfl, rfl⟩
  · exact State.SameBeside.refl s

/-- The memory service's part of a tap's read. -/
theorem sameBeside_tapService (l : LineRun) (d : Nat) (s : State) : s.SameBeside (tapService l d s) := by
  have h := (sameBeside_countRead (sourceSample l (d / 256) s) s).trans (sameBeside_countRead (sourceSample l (d / 256 + 1) s) _)
  unfold tapService
  simp only []
  split
  · exact (h.trans (sameBeside_offerRead _ _)).trans (sameBeside_offerRead _ _)
  · exact h

/-- A counted word leaves both memories. -/
theorem countRead_memory (x : ReadOutcome × Option Nat) (s : State) :
    (countRead x s).near = s.near ∧ (countRead x s).dram = s.dram := by
  unfold countRead
  split <;> exact ⟨rfl, rfl⟩

/-- An offered word leaves both memories. -/
theorem offerRead_memory (x : ReadOutcome × Option Nat) (s : State) :
    (offerRead x s).near = s.near ∧ (offerRead x s).dram = s.dram := by
  unfold offerRead
  split
  · rename_i v a _ _
    have h := State.offer_keeps a v s
    exact ⟨h.2.2.1, h.2.2.2.1⟩
  · exact ⟨rfl, rfl⟩

/-- No read writes a word of either memory (R44). -/
theorem tapService_memory (l : LineRun) (d : Nat) (s : State) :
    (tapService l d s).near = s.near ∧ (tapService l d s).dram = s.dram := by
  unfold tapService
  simp only []
  split <;> simp [offerRead_memory, countRead_memory]

/-- The taps of an instance leave both memories. -/
theorem tapsFrame_memory (c : FrameCtx) (ts : List TapProg) : ∀ (us : List TapRun) (s : State),
    (tapsFrame c ts us s).2.near = s.near ∧ (tapsFrame c ts us s).2.dram = s.dram := by
  induction ts with
  | nil => intro us s; simp [tapsFrame]
  | cons t ts ih =>
    intro us s
    cases us with
    | nil => simp [tapsFrame]
    | cons u us =>
      have h := tapService_memory (c.lineOf t) (tapFrame c t u s).delay s
      exact ⟨(ih us _).1.trans h.1, (ih us _).2.trans h.2⟩

/-- The taps of an instance. -/
theorem sameBeside_tapsFrame (c : FrameCtx) (ts : List TapProg) : ∀ (us : List TapRun) (s : State),
    s.SameBeside (tapsFrame c ts us s).2 := by
  induction ts with
  | nil => intro us s; simp only [tapsFrame]; exact State.SameBeside.refl s
  | cons t ts ih =>
    intro us s
    cases us with
    | nil => simp only [tapsFrame]; exact State.SameBeside.refl s
    | cons u us => exact (sameBeside_tapService (c.lineOf t) (tapFrame c t u s).delay s).trans (ih us _)

/-- The line writes of an instance. -/
theorem sameBeside_writeLines (ls : List LineRun) : ∀ (accs : List Int) (s : State), s.SameBeside (writeLines ls accs s) := by
  induction ls with
  | nil => intro accs s; simp only [writeLines]; exact State.SameBeside.refl s
  | cons l ls ih =>
    intro accs s
    cases accs with
    | nil => simp only [writeLines]; exact State.SameBeside.refl s
    | cons acc accs =>
      refine State.SameBeside.trans ?_ (ih accs _)
      unfold State.writeWord
      split <;> exact ⟨rfl, rfl, rfl, rfl, rfl, rfl, rfl, rfl, rfl, rfl, rfl, rfl, rfl, rfl⟩

/-- The memories' canonical form after an instance's frame. -/
theorem Memory.wf_instFrame (rate : SampleRate) (i : InstNo) (x : Inst) (p : Program) (r : Running) {s : State}
    (h : Memory.wf s = true) : Memory.wf (instFrame rate i x p r s).state = true := by
  have hm := tapsFrame_memory (frameCtx rate i x p r s) p.taps r.taps s
  have h2 : Memory.wf (tapsFrame (frameCtx rate i x p r s) p.taps r.taps s).2 = true := by
    rw [Memory.wf_congr hm.1 hm.2]; exact h
  simp only [instFrame]
  split
  · exact Memory.wf_writeLines _ _ h2
  · exact Memory.wf_writeLines _ _ h2

/-- An instance's frame. -/
theorem sameBeside_instFrame (rate : SampleRate) (i : InstNo) (x : Inst) (p : Program) (r : Running) (s : State) :
    s.SameBeside (instFrame rate i x p r s).state := by
  have h := fun accs => (sameBeside_tapsFrame (frameCtx rate i x p r s) p.taps r.taps s).trans (sameBeside_writeLines r.lines accs _)
  simp only [instFrame]
  split
  · exact (h _).trans ⟨rfl, rfl, rfl, rfl, rfl, rfl, rfl, rfl, rfl, rfl, rfl, rfl, rfl, rfl⟩
  · exact h _

/-- One instance of a frame: what it leaves, and the memories' canonical form. -/
theorem processInst_keeps (rate : SampleRate) (i : InstNo) (acc : Vector Int 32 × State) :
    acc.2.SameBeside (processInst rate i acc).2 ∧ (Memory.wf acc.2 = true → Memory.wf (processInst rate i acc).2 = true) := by
  unfold processInst
  simp only []
  split
  · split
    · refine ⟨(sameBeside_instFrame ..).trans ⟨rfl, rfl, rfl, rfl, rfl, rfl, rfl, rfl, rfl, rfl, rfl, rfl, rfl, rfl⟩, fun h => ?_⟩
      exact (Memory.wf_congr rfl rfl).trans (Memory.wf_instFrame rate i _ _ _ h)
    · exact ⟨State.SameBeside.refl _, id⟩
  · exact ⟨State.SameBeside.refl _, id⟩

/-- Every instance of a frame: what they leave, and the memories' canonical form. -/
theorem processAll_keeps (rate : SampleRate) (order : List InstNo) (s : State) :
    s.SameBeside (processAll rate order s).2 ∧ (Memory.wf s = true → Memory.wf (processAll rate order s).2 = true) := by
  unfold processAll
  suffices h : ∀ (l : List InstNo) (acc : Vector Int 32 × State),
      acc.2.SameBeside (l.foldl (fun acc i => processInst rate i acc) acc).2 ∧
        (Memory.wf acc.2 = true → Memory.wf (l.foldl (fun acc i => processInst rate i acc) acc).2 = true) from
    h _ (Vector.replicate 32 0, s)
  intro l
  induction l with
  | nil => exact fun acc => ⟨State.SameBeside.refl _, id⟩
  | cons i l ih =>
    intro acc
    have h := processInst_keeps rate i acc
    exact ⟨h.1.trans (ih _).1, fun w => (ih _).2 (h.2 w)⟩

/-! ### A frame cut off (R48) -/

/-- The first writes of one instance: what they leave, and the memories' canonical form. -/
theorem cutInst_keeps (rate : SampleRate) (n : Nat) (i : InstNo) (s : State) :
    s.SameBeside (cutInst rate n i s) ∧ (Memory.wf s = true → Memory.wf (cutInst rate n i s) = true) := by
  unfold cutInst
  simp only []
  split
  · split
    · exact ⟨sameBeside_writeLines .., fun h => Memory.wf_writeLines _ _ h⟩
    · exact ⟨State.SameBeside.refl _, id⟩
  · exact ⟨State.SameBeside.refl _, id⟩

/-- With no write made, the cut instance has changed nothing. -/
theorem cutInst_zero (rate : SampleRate) (i : InstNo) (s : State) : cutInst rate 0 i s = s := by
  unfold cutInst
  simp only [List.take_zero]
  split
  · split
    · simp [writeLines]
    · rfl
  · rfl

/-- The first writes of a frame: what they leave, and the memories' canonical form. -/
theorem cutFrame_keeps (rate : SampleRate) (l : List InstNo) : ∀ (n : Nat) (s : State),
    s.SameBeside (cutFrame rate n l s) ∧ (Memory.wf s = true → Memory.wf (cutFrame rate n l s) = true) := by
  induction l with
  | nil => intro n s; simp only [cutFrame]; exact ⟨State.SameBeside.refl _, id⟩
  | cons i l ih =>
    intro n s
    unfold cutFrame
    split
    · have h := processInst_keeps rate i (Vector.replicate 32 0, s)
      exact ⟨h.1.trans (ih _ _).1, fun w => (ih _ _).2 (h.2 w)⟩
    · exact cutInst_keeps rate n i s

/-! ### A frame start, whole or cut off -/

/-- A frame start during which RESET is not asserted. -/
theorem State.frameStart_whole {env : FrameEnv} (h : env.cut = none) (inputs : Vector Int 32) (s : State) :
    s.frameStart inputs env = s.wholeFrame inputs env := by
  simp [State.frameStart, h]

/-- A frame start during which RESET is asserted. -/
theorem State.frameStart_cut {env : FrameEnv} {n : Nat} (h : env.cut = some n) (inputs : Vector Int 32) (s : State) :
    s.frameStart inputs env = s.cutFrameStart inputs n env := by
  simp [State.frameStart, h]

/-- Everything that a cut frame start leaves: the state of an asserted RESET pin, its memories those of the frame's first writes. -/
theorem State.cutFrameStart_cases (inputs : Vector Int 32) (n : Nat) (env : FrameEnv) (s : State) :
    let s1 := s.openFrame inputs env
    (s1.run = none ∧ s.cutFrameStart inputs n env = s1.resetAssert) ∨
    ∃ r, s1.run = some r ∧
      s.cutFrameStart inputs n env = { s1.resetAssert with near := (cutFrame r.rate n (frameOrder env.order) s1).near,
                                                           dram := (cutFrame r.rate n (frameOrder env.order) s1).dram } := by
  simp only [State.cutFrameStart]
  cases hr : (s.openFrame inputs env).run with
  | none => exact .inl ⟨rfl, rfl⟩
  | some r =>
    refine .inr ⟨r, rfl, ?_⟩
    have h := (cutFrame_keeps r.rate (frameOrder env.order) n (s.openFrame inputs env)).1
    simp only [State.resetAssert, h.pending, h.powerUps, h.library]

end Sys2Proof.Machine
end

