-- ==== Sys2Proof/Laws/Invariants.lean ====
section
/-! SUPPORT. What the invariants rest on: two states that agree on the fields an invariant reads meet it together. -/

namespace Sys2Proof.Machine

/-- What the instance invariants read of an instance table. -/
structure State.SameTable (s t : State) : Prop where
  run     : t.run = s.run
  queue   : t.queue = s.queue
  spill   : t.spill = s.spill
  due     : t.cue.due = s.cue.due
  library : t.library = s.library
  insts   : ∀ i, (t.inst i).state = (s.inst i).state ∧ (t.inst i).program = (s.inst i).program ∧
    (t.inst i).slot = (s.inst i).slot ∧ (t.inst i).running = (s.inst i).running

/-- The instance table's invariant carries over. -/
theorem InstancesInv.congr {s t : State} (h : InstancesInv s) (e : s.SameTable t) : InstancesInv t where
  queueOnce := by rw [e.queue]; exact h.queueOnce
  spillOnce := by rw [e.spill]; exact h.spillOnce
  waiting i := by rw [e.queue, (e.insts i).1]; exact h.waiting i
  spilling i := by rw [e.spill, (e.insts i).1]; exact h.spilling i
  holds i := by rw [(e.insts i).1, (e.insts i).2.2.2]; exact h.holds i
  program i := by rw [(e.insts i).1, (e.insts i).2.1]; exact h.program i
  slot i := by rw [(e.insts i).1, (e.insts i).2.2.1]; exact h.slot i
  setup hr i := by rw [(e.insts i).1]; exact h.setup (e.run ▸ hr) i
  cue hr := by rw [e.due]; exact h.cue (e.run ▸ hr)

/-- The programs' limits carry over. -/
theorem ProgramsInv.congr {s t : State} (h : ProgramsInv s) (e : s.SameTable t) : ProgramsInv t where
  library k r hk := h.library k r (by simpa only [State.libSlot, e.library] using hk)
  instances i p hp := h.instances i p ((e.insts i).2.1 ▸ hp)

/-- Sound pools carry over, where the memory service's queue, event and access are the same too. -/
theorem PoolInv.congr {s t : State} (h : PoolInv s) (e : s.SameTable t) (hc : t.corrections = s.corrections)
    (hd : t.serviceDue = s.serviceDue) (ha : t.access = s.access) : PoolInv t where
  instances := h.instances.congr e
  programs := h.programs.congr e
  pools r p hr := by
    have w := h.pools r p (e.run ▸ hr)
    have hp : ∀ i, (t.inst i).pageList p = (s.inst i).pageList p := fun i => by
      funext j; simp only [Inst.pageList, (e.insts i).2.2.2]
    have hn : ∀ i, (t.inst i).pagesIn p = (s.inst i).pagesIn p := fun i => by
      simp only [Inst.pagesIn, (e.insts i).2.2.2]
    exact { freeOnce := w.freeOnce, tableSize := w.tableSize, free := w.free,
            owned := fun q i j => by rw [hp]; exact w.owned q i j,
            pagesOnce := fun i j => by rw [hp]; exact w.pagesOnce i j,
            total := by simp only [hn]; exact w.total }
  lengths i := by
    intro p r hp hr
    exact h.lengths i p r ((e.insts i).2.1 ▸ hp) ((e.insts i).2.2.2 ▸ hr)
  corrections r hr := by rw [hc]; exact h.corrections r (e.run ▸ hr)
  setup hr := by rw [hc, hd, ha]; exact h.setup (e.run ▸ hr)

/-- Running fields in range carry over, with the same tempo. -/
theorem RunningInv.congr {s t : State} (h : RunningInv s) (e : s.SameTable t) (ht : t.tempo.tempo = s.tempo.tempo) :
    RunningInv t where
  programs := h.programs.congr e
  tempo := by rw [ht]; exact h.tempo
  running i r hr := h.running i r ((e.insts i).2.2.2 ▸ hr)

end Sys2Proof.Machine
end

