-- ==== Sys2Proof/Laws/Moves.lean ====
section
/-! SUPPORT. The moves of instances and the admission unit: what each operation can do, and the fields that none of them
touches. -/

namespace Sys2Proof.Machine

/-! ### Moves (R79, R80, R84, R104) -/

/-- The contexts after a move to SPILLING (R79, R109). -/
theorem State.toSpilling_inst (i j : InstNo) (s : State) :
    (s.toSpilling i).inst j =
      if j = i then
        { s.inst i with state := .spilling, stopReason := .user, quietCount := 0, spillWindows := 0, decision := none,
                        running := (s.inst i).running.map fun r => { r with windowProgress := 0, windowPeak := 0 } }
      else s.inst j := by
  unfold State.toSpilling
  rw [State.modInst_inst]
  rfl

/-- The contexts after a move to CUTTING (R80, R104, R113). -/
theorem State.toCutting_inst (i j : InstNo) (why : StopReason) (s : State) :
    (s.toCutting i why).inst j =
      if j = i then { s.inst i with state := .cutting, stopReason := why, decision := none, releaseDue := false }
      else s.inst j := by
  unfold State.toCutting
  rw [State.modInst_inst]
  rfl

/-- The contexts after a resume (R78, R109). -/
theorem State.resume_inst (i j : InstNo) (s : State) :
    (s.resume i).inst j =
      if j = i then { s.inst i with state := .running, quietCount := 0, spillWindows := 0, decision := none }
      else s.inst j := by
  unfold State.resume
  rw [State.modInst_inst]
  rfl

/-- The spill list after a move to SPILLING: the instance is its tail (R108). -/
@[simp] theorem State.toSpilling_spill (i : InstNo) (s : State) : (s.toSpilling i).spill = s.spill ++ [i] := rfl

/-- The spill list after a move to CUTTING (R108). -/
@[simp] theorem State.toCutting_spill (i : InstNo) (why : StopReason) (s : State) :
    (s.toCutting i why).spill = s.spill.erase i := rfl

/-- The spill list after a resume (R108). -/
@[simp] theorem State.resume_spill (i : InstNo) (s : State) : (s.resume i).spill = s.spill.erase i := rfl

/-- A move to SPILLING leaves the queue. -/
@[simp] theorem State.toSpilling_queue (i : InstNo) (s : State) : (s.toSpilling i).queue = s.queue := rfl

/-- A move to CUTTING leaves the queue. -/
@[simp] theorem State.toCutting_queue (i : InstNo) (why : StopReason) (s : State) : (s.toCutting i why).queue = s.queue := rfl

/-- A move to SPILLING leaves the pools. -/
@[simp] theorem State.toSpilling_run (i : InstNo) (s : State) : (s.toSpilling i).run = s.run := rfl

/-- A move to CUTTING leaves the pools. -/
@[simp] theorem State.toCutting_run (i : InstNo) (why : StopReason) (s : State) : (s.toCutting i why).run = s.run := rfl

/-- The fields that a release clears (R84). -/
theorem Inst.released_fields (x : Inst) :
    x.released.state = .ready ∧ x.released.running = none ∧ x.released.program = x.program ∧ x.released.slot = x.slot ∧
      x.released.routing = x.routing ∧ x.released.lastLevel = x.lastLevel ∧ x.released.quietCount = x.quietCount ∧
      x.released.spillWindows = x.spillWindows ∧ x.released.clip = x.clip ∧ x.released.stopReason = x.stopReason :=
  ⟨rfl, rfl, rfl, rfl, rfl, rfl, rfl, rfl, rfl, rfl⟩

/-- An admission in RUN of an instance with a program (R8, R16, R77). -/
theorem State.admission_eq {i : InstNo} {s : State} {r : Run} {p : Program} (hr : s.run = some r)
    (hp : (s.inst i).program = some p) :
    s.admission i =
      let t := fitTest p s.freeCounts
      let g := grantLines i 0 (t.1.zip (p.lines.map LineProg.length)) r
      State.modInst i (Inst.admitted r.rate s.tempo.tempo p g.1 t.2.budget)
        { s with run := some { g.2 with budgetInUse := g.2.budgetInUse + t.2.budget } } := by
  simp [State.admission, hr, hp]

/-! ### The fields that the admission unit never touches -/

@[simp] theorem State.admission_pending (i : InstNo) (s : State) : (s.admission i).pending = s.pending := by
  unfold State.admission; split <;> rfl
@[simp] theorem stealUntil_pending (i : InstNo) (n : Nat) : ∀ (c : Counts) (s : State), (stealUntil i n c s).2.pending = s.pending := by
  induction n with
  | zero => intro c s; rfl
  | succ n ih =>
    intro c s
    simp only [stealUntil]
    split
    · rfl
    · split
      · rfl
      · rw [ih]; rfl
@[simp] theorem serveHeads_pending (n : Nat) : ∀ s : State, (serveHeads n s).pending = s.pending := by
  induction n with
  | zero => intro s; rfl
  | succ n ih =>
    intro s
    simp only [serveHeads]
    split
    · rfl
    · split
      · rw [ih]; simp [State.admitHead]
      · split
        · simp
        · rw [ih]; simp [State.giveUp]
@[simp] theorem State.headService_pending (s : State) : s.headService.pending = s.pending := serveHeads_pending _ s
@[simp] theorem State.releaseInst_pending (i : InstNo) (s : State) : (s.releaseInst i).pending = s.pending := by
  simp [State.releaseInst]
@[simp] theorem State.dequeue_pending (i : InstNo) (s : State) : (s.dequeue i).pending = s.pending := by
  unfold State.dequeue
  split <;> simp
@[simp] theorem State.startReady_pending (i : InstNo) (s : State) : (s.startReady i).2.pending = s.pending := by
  unfold State.startReady
  split
  · simp
  · split <;> simp
@[simp] theorem State.tailDecision_pending (i : InstNo) (s : State) : (s.tailDecision i).pending = s.pending := by
  unfold State.tailDecision
  split
  · rfl
  · split
    · split
      · simp
      · rfl
    · rfl
@[simp] theorem State.cutRelease_pending (i : InstNo) (s : State) : (s.cutRelease i).pending = s.pending := by
  unfold State.cutRelease
  split
  · simp only []; split <;> simp
  · rfl

@[simp] theorem State.admission_powerUps (i : InstNo) (s : State) : (s.admission i).powerUps = s.powerUps := by
  unfold State.admission; split <;> rfl
@[simp] theorem stealUntil_powerUps (i : InstNo) (n : Nat) : ∀ (c : Counts) (s : State), (stealUntil i n c s).2.powerUps = s.powerUps := by
  induction n with
  | zero => intro c s; rfl
  | succ n ih =>
    intro c s
    simp only [stealUntil]
    split
    · rfl
    · split
      · rfl
      · rw [ih]; rfl
@[simp] theorem serveHeads_powerUps (n : Nat) : ∀ s : State, (serveHeads n s).powerUps = s.powerUps := by
  induction n with
  | zero => intro s; rfl
  | succ n ih =>
    intro s
    simp only [serveHeads]
    split
    · rfl
    · split
      · rw [ih]; simp [State.admitHead]
      · split
        · simp
        · rw [ih]; simp [State.giveUp]
@[simp] theorem State.headService_powerUps (s : State) : s.headService.powerUps = s.powerUps := serveHeads_powerUps _ s
@[simp] theorem State.releaseInst_powerUps (i : InstNo) (s : State) : (s.releaseInst i).powerUps = s.powerUps := by
  simp [State.releaseInst]
@[simp] theorem State.dequeue_powerUps (i : InstNo) (s : State) : (s.dequeue i).powerUps = s.powerUps := by
  unfold State.dequeue
  split <;> simp
@[simp] theorem State.startReady_powerUps (i : InstNo) (s : State) : (s.startReady i).2.powerUps = s.powerUps := by
  unfold State.startReady
  split
  · simp
  · split <;> simp
@[simp] theorem State.tailDecision_powerUps (i : InstNo) (s : State) : (s.tailDecision i).powerUps = s.powerUps := by
  unfold State.tailDecision
  split
  · rfl
  · split
    · split
      · simp
      · rfl
    · rfl
@[simp] theorem State.cutRelease_powerUps (i : InstNo) (s : State) : (s.cutRelease i).powerUps = s.powerUps := by
  unfold State.cutRelease
  split
  · simp only []; split <;> simp
  · rfl

@[simp] theorem State.admission_resetPin (i : InstNo) (s : State) : (s.admission i).resetPin = s.resetPin := by
  unfold State.admission; split <;> rfl
@[simp] theorem stealUntil_resetPin (i : InstNo) (n : Nat) : ∀ (c : Counts) (s : State), (stealUntil i n c s).2.resetPin = s.resetPin := by
  induction n with
  | zero => intro c s; rfl
  | succ n ih =>
    intro c s
    simp only [stealUntil]
    split
    · rfl
    · split
      · rfl
      · rw [ih]; rfl
@[simp] theorem serveHeads_resetPin (n : Nat) : ∀ s : State, (serveHeads n s).resetPin = s.resetPin := by
  induction n with
  | zero => intro s; rfl
  | succ n ih =>
    intro s
    simp only [serveHeads]
    split
    · rfl
    · split
      · rw [ih]; simp [State.admitHead]
      · split
        · simp
        · rw [ih]; simp [State.giveUp]
@[simp] theorem State.headService_resetPin (s : State) : s.headService.resetPin = s.resetPin := serveHeads_resetPin _ s
@[simp] theorem State.releaseInst_resetPin (i : InstNo) (s : State) : (s.releaseInst i).resetPin = s.resetPin := by
  simp [State.releaseInst]
@[simp] theorem State.dequeue_resetPin (i : InstNo) (s : State) : (s.dequeue i).resetPin = s.resetPin := by
  unfold State.dequeue
  split <;> simp
@[simp] theorem State.startReady_resetPin (i : InstNo) (s : State) : (s.startReady i).2.resetPin = s.resetPin := by
  unfold State.startReady
  split
  · simp
  · split <;> simp
@[simp] theorem State.tailDecision_resetPin (i : InstNo) (s : State) : (s.tailDecision i).resetPin = s.resetPin := by
  unfold State.tailDecision
  split
  · rfl
  · split
    · split
      · simp
      · rfl
    · rfl
@[simp] theorem State.cutRelease_resetPin (i : InstNo) (s : State) : (s.cutRelease i).resetPin = s.resetPin := by
  unfold State.cutRelease
  split
  · simp only []; split <;> simp
  · rfl

@[simp] theorem State.admission_library (i : InstNo) (s : State) : (s.admission i).library = s.library := by
  unfold State.admission; split <;> rfl
@[simp] theorem stealUntil_library (i : InstNo) (n : Nat) : ∀ (c : Counts) (s : State), (stealUntil i n c s).2.library = s.library := by
  induction n with
  | zero => intro c s; rfl
  | succ n ih =>
    intro c s
    simp only [stealUntil]
    split
    · rfl
    · split
      · rfl
      · rw [ih]; rfl
@[simp] theorem serveHeads_library (n : Nat) : ∀ s : State, (serveHeads n s).library = s.library := by
  induction n with
  | zero => intro s; rfl
  | succ n ih =>
    intro s
    simp only [serveHeads]
    split
    · rfl
    · split
      · rw [ih]; simp [State.admitHead]
      · split
        · simp
        · rw [ih]; simp [State.giveUp]
@[simp] theorem State.headService_library (s : State) : s.headService.library = s.library := serveHeads_library _ s
@[simp] theorem State.releaseInst_library (i : InstNo) (s : State) : (s.releaseInst i).library = s.library := by
  simp [State.releaseInst]
@[simp] theorem State.dequeue_library (i : InstNo) (s : State) : (s.dequeue i).library = s.library := by
  unfold State.dequeue
  split <;> simp
@[simp] theorem State.startReady_library (i : InstNo) (s : State) : (s.startReady i).2.library = s.library := by
  unfold State.startReady
  split
  · simp
  · split <;> simp
@[simp] theorem State.tailDecision_library (i : InstNo) (s : State) : (s.tailDecision i).library = s.library := by
  unfold State.tailDecision
  split
  · rfl
  · split
    · split
      · simp
      · rfl
    · rfl
@[simp] theorem State.cutRelease_library (i : InstNo) (s : State) : (s.cutRelease i).library = s.library := by
  unfold State.cutRelease
  split
  · simp only []; split <;> simp
  · rfl

@[simp] theorem State.admission_tempo (i : InstNo) (s : State) : (s.admission i).tempo = s.tempo := by
  unfold State.admission; split <;> rfl
@[simp] theorem stealUntil_tempo (i : InstNo) (n : Nat) : ∀ (c : Counts) (s : State), (stealUntil i n c s).2.tempo = s.tempo := by
  induction n with
  | zero => intro c s; rfl
  | succ n ih =>
    intro c s
    simp only [stealUntil]
    split
    · rfl
    · split
      · rfl
      · rw [ih]; rfl
@[simp] theorem serveHeads_tempo (n : Nat) : ∀ s : State, (serveHeads n s).tempo = s.tempo := by
  induction n with
  | zero => intro s; rfl
  | succ n ih =>
    intro s
    simp only [serveHeads]
    split
    · rfl
    · split
      · rw [ih]; simp [State.admitHead]
      · split
        · simp
        · rw [ih]; simp [State.giveUp]
@[simp] theorem State.headService_tempo (s : State) : s.headService.tempo = s.tempo := serveHeads_tempo _ s
@[simp] theorem State.releaseInst_tempo (i : InstNo) (s : State) : (s.releaseInst i).tempo = s.tempo := by
  simp [State.releaseInst]
@[simp] theorem State.dequeue_tempo (i : InstNo) (s : State) : (s.dequeue i).tempo = s.tempo := by
  unfold State.dequeue
  split <;> simp
@[simp] theorem State.startReady_tempo (i : InstNo) (s : State) : (s.startReady i).2.tempo = s.tempo := by
  unfold State.startReady
  split
  · simp
  · split <;> simp
@[simp] theorem State.tailDecision_tempo (i : InstNo) (s : State) : (s.tailDecision i).tempo = s.tempo := by
  unfold State.tailDecision
  split
  · rfl
  · split
    · split
      · simp
      · rfl
    · rfl
@[simp] theorem State.cutRelease_tempo (i : InstNo) (s : State) : (s.cutRelease i).tempo = s.tempo := by
  unfold State.cutRelease
  split
  · simp only []; split <;> simp
  · rfl

@[simp] theorem State.admission_cue (i : InstNo) (s : State) : (s.admission i).cue = s.cue := by
  unfold State.admission; split <;> rfl
@[simp] theorem stealUntil_cue (i : InstNo) (n : Nat) : ∀ (c : Counts) (s : State), (stealUntil i n c s).2.cue = s.cue := by
  induction n with
  | zero => intro c s; rfl
  | succ n ih =>
    intro c s
    simp only [stealUntil]
    split
    · rfl
    · split
      · rfl
      · rw [ih]; rfl
@[simp] theorem serveHeads_cue (n : Nat) : ∀ s : State, (serveHeads n s).cue = s.cue := by
  induction n with
  | zero => intro s; rfl
  | succ n ih =>
    intro s
    simp only [serveHeads]
    split
    · rfl
    · split
      · rw [ih]; simp [State.admitHead]
      · split
        · simp
        · rw [ih]; simp [State.giveUp]
@[simp] theorem State.headService_cue (s : State) : s.headService.cue = s.cue := serveHeads_cue _ s
@[simp] theorem State.releaseInst_cue (i : InstNo) (s : State) : (s.releaseInst i).cue = s.cue := by
  simp [State.releaseInst]
@[simp] theorem State.dequeue_cue (i : InstNo) (s : State) : (s.dequeue i).cue = s.cue := by
  unfold State.dequeue
  split <;> simp
@[simp] theorem State.startReady_cue (i : InstNo) (s : State) : (s.startReady i).2.cue = s.cue := by
  unfold State.startReady
  split
  · simp
  · split <;> simp
@[simp] theorem State.tailDecision_cue (i : InstNo) (s : State) : (s.tailDecision i).cue = s.cue := by
  unfold State.tailDecision
  split
  · rfl
  · split
    · split
      · simp
      · rfl
    · rfl
@[simp] theorem State.cutRelease_cue (i : InstNo) (s : State) : (s.cutRelease i).cue = s.cue := by
  unfold State.cutRelease
  split
  · simp only []; split <;> simp
  · rfl

@[simp] theorem State.admission_near (i : InstNo) (s : State) : (s.admission i).near = s.near := by
  unfold State.admission; split <;> rfl
@[simp] theorem stealUntil_near (i : InstNo) (n : Nat) : ∀ (c : Counts) (s : State), (stealUntil i n c s).2.near = s.near := by
  induction n with
  | zero => intro c s; rfl
  | succ n ih =>
    intro c s
    simp only [stealUntil]
    split
    · rfl
    · split
      · rfl
      · rw [ih]; rfl
@[simp] theorem serveHeads_near (n : Nat) : ∀ s : State, (serveHeads n s).near = s.near := by
  induction n with
  | zero => intro s; rfl
  | succ n ih =>
    intro s
    simp only [serveHeads]
    split
    · rfl
    · split
      · rw [ih]; simp [State.admitHead]
      · split
        · simp
        · rw [ih]; simp [State.giveUp]
@[simp] theorem State.headService_near (s : State) : s.headService.near = s.near := serveHeads_near _ s
@[simp] theorem State.releaseInst_near (i : InstNo) (s : State) : (s.releaseInst i).near = s.near := by
  simp [State.releaseInst]
@[simp] theorem State.dequeue_near (i : InstNo) (s : State) : (s.dequeue i).near = s.near := by
  unfold State.dequeue
  split <;> simp
@[simp] theorem State.startReady_near (i : InstNo) (s : State) : (s.startReady i).2.near = s.near := by
  unfold State.startReady
  split
  · simp
  · split <;> simp
@[simp] theorem State.tailDecision_near (i : InstNo) (s : State) : (s.tailDecision i).near = s.near := by
  unfold State.tailDecision
  split
  · rfl
  · split
    · split
      · simp
      · rfl
    · rfl
@[simp] theorem State.cutRelease_near (i : InstNo) (s : State) : (s.cutRelease i).near = s.near := by
  unfold State.cutRelease
  split
  · simp only []; split <;> simp
  · rfl

@[simp] theorem State.admission_dram (i : InstNo) (s : State) : (s.admission i).dram = s.dram := by
  unfold State.admission; split <;> rfl
@[simp] theorem stealUntil_dram (i : InstNo) (n : Nat) : ∀ (c : Counts) (s : State), (stealUntil i n c s).2.dram = s.dram := by
  induction n with
  | zero => intro c s; rfl
  | succ n ih =>
    intro c s
    simp only [stealUntil]
    split
    · rfl
    · split
      · rfl
      · rw [ih]; rfl
@[simp] theorem serveHeads_dram (n : Nat) : ∀ s : State, (serveHeads n s).dram = s.dram := by
  induction n with
  | zero => intro s; rfl
  | succ n ih =>
    intro s
    simp only [serveHeads]
    split
    · rfl
    · split
      · rw [ih]; simp [State.admitHead]
      · split
        · simp
        · rw [ih]; simp [State.giveUp]
@[simp] theorem State.headService_dram (s : State) : s.headService.dram = s.dram := serveHeads_dram _ s
@[simp] theorem State.releaseInst_dram (i : InstNo) (s : State) : (s.releaseInst i).dram = s.dram := by
  simp [State.releaseInst]
@[simp] theorem State.dequeue_dram (i : InstNo) (s : State) : (s.dequeue i).dram = s.dram := by
  unfold State.dequeue
  split <;> simp
@[simp] theorem State.startReady_dram (i : InstNo) (s : State) : (s.startReady i).2.dram = s.dram := by
  unfold State.startReady
  split
  · simp
  · split <;> simp
@[simp] theorem State.tailDecision_dram (i : InstNo) (s : State) : (s.tailDecision i).dram = s.dram := by
  unfold State.tailDecision
  split
  · rfl
  · split
    · split
      · simp
      · rfl
    · rfl
@[simp] theorem State.cutRelease_dram (i : InstNo) (s : State) : (s.cutRelease i).dram = s.dram := by
  unfold State.cutRelease
  split
  · simp only []; split <;> simp
  · rfl

@[simp] theorem State.admission_corrections (i : InstNo) (s : State) : (s.admission i).corrections = s.corrections := by
  unfold State.admission; split <;> rfl
@[simp] theorem stealUntil_corrections (i : InstNo) (n : Nat) : ∀ (c : Counts) (s : State), (stealUntil i n c s).2.corrections = s.corrections := by
  induction n with
  | zero => intro c s; rfl
  | succ n ih =>
    intro c s
    simp only [stealUntil]
    split
    · rfl
    · split
      · rfl
      · rw [ih]; rfl
@[simp] theorem serveHeads_corrections (n : Nat) : ∀ s : State, (serveHeads n s).corrections = s.corrections := by
  induction n with
  | zero => intro s; rfl
  | succ n ih =>
    intro s
    simp only [serveHeads]
    split
    · rfl
    · split
      · rw [ih]; simp [State.admitHead]
      · split
        · simp
        · rw [ih]; simp [State.giveUp]
@[simp] theorem State.headService_corrections (s : State) : s.headService.corrections = s.corrections := serveHeads_corrections _ s
@[simp] theorem State.releaseInst_corrections (i : InstNo) (s : State) : (s.releaseInst i).corrections = s.corrections := by
  simp [State.releaseInst]
@[simp] theorem State.dequeue_corrections (i : InstNo) (s : State) : (s.dequeue i).corrections = s.corrections := by
  unfold State.dequeue
  split <;> simp
@[simp] theorem State.startReady_corrections (i : InstNo) (s : State) : (s.startReady i).2.corrections = s.corrections := by
  unfold State.startReady
  split
  · simp
  · split <;> simp
@[simp] theorem State.tailDecision_corrections (i : InstNo) (s : State) : (s.tailDecision i).corrections = s.corrections := by
  unfold State.tailDecision
  split
  · rfl
  · split
    · split
      · simp
      · rfl
    · rfl
@[simp] theorem State.cutRelease_corrections (i : InstNo) (s : State) : (s.cutRelease i).corrections = s.corrections := by
  unfold State.cutRelease
  split
  · simp only []; split <;> simp
  · rfl

@[simp] theorem State.admission_errors (i : InstNo) (s : State) : (s.admission i).errors = s.errors := by
  unfold State.admission; split <;> rfl
@[simp] theorem stealUntil_errors (i : InstNo) (n : Nat) : ∀ (c : Counts) (s : State), (stealUntil i n c s).2.errors = s.errors := by
  induction n with
  | zero => intro c s; rfl
  | succ n ih =>
    intro c s
    simp only [stealUntil]
    split
    · rfl
    · split
      · rfl
      · rw [ih]; rfl
@[simp] theorem serveHeads_errors (n : Nat) : ∀ s : State, (serveHeads n s).errors = s.errors := by
  induction n with
  | zero => intro s; rfl
  | succ n ih =>
    intro s
    simp only [serveHeads]
    split
    · rfl
    · split
      · rw [ih]; simp [State.admitHead]
      · split
        · simp
        · rw [ih]; simp [State.giveUp]
@[simp] theorem State.headService_errors (s : State) : s.headService.errors = s.errors := serveHeads_errors _ s
@[simp] theorem State.releaseInst_errors (i : InstNo) (s : State) : (s.releaseInst i).errors = s.errors := by
  simp [State.releaseInst]
@[simp] theorem State.dequeue_errors (i : InstNo) (s : State) : (s.dequeue i).errors = s.errors := by
  unfold State.dequeue
  split <;> simp
@[simp] theorem State.startReady_errors (i : InstNo) (s : State) : (s.startReady i).2.errors = s.errors := by
  unfold State.startReady
  split
  · simp
  · split <;> simp
@[simp] theorem State.tailDecision_errors (i : InstNo) (s : State) : (s.tailDecision i).errors = s.errors := by
  unfold State.tailDecision
  split
  · rfl
  · split
    · split
      · simp
      · rfl
    · rfl
@[simp] theorem State.cutRelease_errors (i : InstNo) (s : State) : (s.cutRelease i).errors = s.errors := by
  unfold State.cutRelease
  split
  · simp only []; split <;> simp
  · rfl

@[simp] theorem State.admission_access (i : InstNo) (s : State) : (s.admission i).access = s.access := by
  unfold State.admission; split <;> rfl
@[simp] theorem stealUntil_access (i : InstNo) (n : Nat) : ∀ (c : Counts) (s : State), (stealUntil i n c s).2.access = s.access := by
  induction n with
  | zero => intro c s; rfl
  | succ n ih =>
    intro c s
    simp only [stealUntil]
    split
    · rfl
    · split
      · rfl
      · rw [ih]; rfl
@[simp] theorem serveHeads_access (n : Nat) : ∀ s : State, (serveHeads n s).access = s.access := by
  induction n with
  | zero => intro s; rfl
  | succ n ih =>
    intro s
    simp only [serveHeads]
    split
    · rfl
    · split
      · rw [ih]; simp [State.admitHead]
      · split
        · simp
        · rw [ih]; simp [State.giveUp]
@[simp] theorem State.headService_access (s : State) : s.headService.access = s.access := serveHeads_access _ s
@[simp] theorem State.releaseInst_access (i : InstNo) (s : State) : (s.releaseInst i).access = s.access := by
  simp [State.releaseInst]
@[simp] theorem State.dequeue_access (i : InstNo) (s : State) : (s.dequeue i).access = s.access := by
  unfold State.dequeue
  split <;> simp
@[simp] theorem State.startReady_access (i : InstNo) (s : State) : (s.startReady i).2.access = s.access := by
  unfold State.startReady
  split
  · simp
  · split <;> simp
@[simp] theorem State.tailDecision_access (i : InstNo) (s : State) : (s.tailDecision i).access = s.access := by
  unfold State.tailDecision
  split
  · rfl
  · split
    · split
      · simp
      · rfl
    · rfl
@[simp] theorem State.cutRelease_access (i : InstNo) (s : State) : (s.cutRelease i).access = s.access := by
  unfold State.cutRelease
  split
  · simp only []; split <;> simp
  · rfl

@[simp] theorem State.admission_serviceDue (i : InstNo) (s : State) : (s.admission i).serviceDue = s.serviceDue := by
  unfold State.admission; split <;> rfl
@[simp] theorem stealUntil_serviceDue (i : InstNo) (n : Nat) : ∀ (c : Counts) (s : State), (stealUntil i n c s).2.serviceDue = s.serviceDue := by
  induction n with
  | zero => intro c s; rfl
  | succ n ih =>
    intro c s
    simp only [stealUntil]
    split
    · rfl
    · split
      · rfl
      · rw [ih]; rfl
@[simp] theorem serveHeads_serviceDue (n : Nat) : ∀ s : State, (serveHeads n s).serviceDue = s.serviceDue := by
  induction n with
  | zero => intro s; rfl
  | succ n ih =>
    intro s
    simp only [serveHeads]
    split
    · rfl
    · split
      · rw [ih]; simp [State.admitHead]
      · split
        · simp
        · rw [ih]; simp [State.giveUp]
@[simp] theorem State.headService_serviceDue (s : State) : s.headService.serviceDue = s.serviceDue := serveHeads_serviceDue _ s
@[simp] theorem State.releaseInst_serviceDue (i : InstNo) (s : State) : (s.releaseInst i).serviceDue = s.serviceDue := by
  simp [State.releaseInst]
@[simp] theorem State.dequeue_serviceDue (i : InstNo) (s : State) : (s.dequeue i).serviceDue = s.serviceDue := by
  unfold State.dequeue
  split <;> simp
@[simp] theorem State.startReady_serviceDue (i : InstNo) (s : State) : (s.startReady i).2.serviceDue = s.serviceDue := by
  unfold State.startReady
  split
  · simp
  · split <;> simp
@[simp] theorem State.tailDecision_serviceDue (i : InstNo) (s : State) : (s.tailDecision i).serviceDue = s.serviceDue := by
  unfold State.tailDecision
  split
  · rfl
  · split
    · split
      · simp
      · rfl
    · rfl
@[simp] theorem State.cutRelease_serviceDue (i : InstNo) (s : State) : (s.cutRelease i).serviceDue = s.serviceDue := by
  unfold State.cutRelease
  split
  · simp only []; split <;> simp
  · rfl

@[simp] theorem State.admission_ports (i : InstNo) (s : State) : (s.admission i).ports = s.ports := by
  unfold State.admission; split <;> rfl
@[simp] theorem stealUntil_ports (i : InstNo) (n : Nat) : ∀ (c : Counts) (s : State), (stealUntil i n c s).2.ports = s.ports := by
  induction n with
  | zero => intro c s; rfl
  | succ n ih =>
    intro c s
    simp only [stealUntil]
    split
    · rfl
    · split
      · rfl
      · rw [ih]; rfl
@[simp] theorem serveHeads_ports (n : Nat) : ∀ s : State, (serveHeads n s).ports = s.ports := by
  induction n with
  | zero => intro s; rfl
  | succ n ih =>
    intro s
    simp only [serveHeads]
    split
    · rfl
    · split
      · rw [ih]; simp [State.admitHead]
      · split
        · simp
        · rw [ih]; simp [State.giveUp]
@[simp] theorem State.headService_ports (s : State) : s.headService.ports = s.ports := serveHeads_ports _ s
@[simp] theorem State.releaseInst_ports (i : InstNo) (s : State) : (s.releaseInst i).ports = s.ports := by
  simp [State.releaseInst]
@[simp] theorem State.dequeue_ports (i : InstNo) (s : State) : (s.dequeue i).ports = s.ports := by
  unfold State.dequeue
  split <;> simp
@[simp] theorem State.startReady_ports (i : InstNo) (s : State) : (s.startReady i).2.ports = s.ports := by
  unfold State.startReady
  split
  · simp
  · split <;> simp
@[simp] theorem State.tailDecision_ports (i : InstNo) (s : State) : (s.tailDecision i).ports = s.ports := by
  unfold State.tailDecision
  split
  · rfl
  · split
    · split
      · simp
      · rfl
    · rfl
@[simp] theorem State.cutRelease_ports (i : InstNo) (s : State) : (s.cutRelease i).ports = s.ports := by
  unfold State.cutRelease
  split
  · simp only []; split <;> simp
  · rfl

@[simp] theorem State.admission_monitor (i : InstNo) (s : State) : (s.admission i).monitor = s.monitor := by
  unfold State.admission; split <;> rfl
@[simp] theorem stealUntil_monitor (i : InstNo) (n : Nat) : ∀ (c : Counts) (s : State), (stealUntil i n c s).2.monitor = s.monitor := by
  induction n with
  | zero => intro c s; rfl
  | succ n ih =>
    intro c s
    simp only [stealUntil]
    split
    · rfl
    · split
      · rfl
      · rw [ih]; rfl
@[simp] theorem serveHeads_monitor (n : Nat) : ∀ s : State, (serveHeads n s).monitor = s.monitor := by
  induction n with
  | zero => intro s; rfl
  | succ n ih =>
    intro s
    simp only [serveHeads]
    split
    · rfl
    · split
      · rw [ih]; simp [State.admitHead]
      · split
        · simp
        · rw [ih]; simp [State.giveUp]
@[simp] theorem State.headService_monitor (s : State) : s.headService.monitor = s.monitor := serveHeads_monitor _ s
@[simp] theorem State.releaseInst_monitor (i : InstNo) (s : State) : (s.releaseInst i).monitor = s.monitor := by
  simp [State.releaseInst]
@[simp] theorem State.dequeue_monitor (i : InstNo) (s : State) : (s.dequeue i).monitor = s.monitor := by
  unfold State.dequeue
  split <;> simp
@[simp] theorem State.startReady_monitor (i : InstNo) (s : State) : (s.startReady i).2.monitor = s.monitor := by
  unfold State.startReady
  split
  · simp
  · split <;> simp
@[simp] theorem State.tailDecision_monitor (i : InstNo) (s : State) : (s.tailDecision i).monitor = s.monitor := by
  unfold State.tailDecision
  split
  · rfl
  · split
    · split
      · simp
      · rfl
    · rfl
@[simp] theorem State.cutRelease_monitor (i : InstNo) (s : State) : (s.cutRelease i).monitor = s.monitor := by
  unfold State.cutRelease
  split
  · simp only []; split <;> simp
  · rfl

@[simp] theorem State.admission_link (i : InstNo) (s : State) : (s.admission i).link = s.link := by
  unfold State.admission; split <;> rfl
@[simp] theorem stealUntil_link (i : InstNo) (n : Nat) : ∀ (c : Counts) (s : State), (stealUntil i n c s).2.link = s.link := by
  induction n with
  | zero => intro c s; rfl
  | succ n ih =>
    intro c s
    simp only [stealUntil]
    split
    · rfl
    · split
      · rfl
      · rw [ih]; rfl
@[simp] theorem serveHeads_link (n : Nat) : ∀ s : State, (serveHeads n s).link = s.link := by
  induction n with
  | zero => intro s; rfl
  | succ n ih =>
    intro s
    simp only [serveHeads]
    split
    · rfl
    · split
      · rw [ih]; simp [State.admitHead]
      · split
        · simp
        · rw [ih]; simp [State.giveUp]
@[simp] theorem State.headService_link (s : State) : s.headService.link = s.link := serveHeads_link _ s
@[simp] theorem State.releaseInst_link (i : InstNo) (s : State) : (s.releaseInst i).link = s.link := by
  simp [State.releaseInst]
@[simp] theorem State.dequeue_link (i : InstNo) (s : State) : (s.dequeue i).link = s.link := by
  unfold State.dequeue
  split <;> simp
@[simp] theorem State.startReady_link (i : InstNo) (s : State) : (s.startReady i).2.link = s.link := by
  unfold State.startReady
  split
  · simp
  · split <;> simp
@[simp] theorem State.tailDecision_link (i : InstNo) (s : State) : (s.tailDecision i).link = s.link := by
  unfold State.tailDecision
  split
  · rfl
  · split
    · split
      · simp
      · rfl
    · rfl
@[simp] theorem State.cutRelease_link (i : InstNo) (s : State) : (s.cutRelease i).link = s.link := by
  unfold State.cutRelease
  split
  · simp only []; split <;> simp
  · rfl

end Sys2Proof.Machine
end

