-- ==== Sys2Proof/Laws/Library.lean ====
section
/-! SUPPORT. The application event and a change of a library slot: what each leaves, and when the one precedes the other (R146). -/

namespace Sys2Proof.Machine

/-! ### No entry of a cue changes the library (R126, R146) -/

/-- Ending an access leaves the library (R166). -/
@[simp] theorem State.abortAccessOf_library (i : InstNo) (s : State) : (s.abortAccessOf i).library = s.library := by
  unfold State.abortAccessOf State.endAccess
  repeat' split
  all_goals rfl

/-- An entry leaves the library. -/
@[simp] theorem applyEntry_library (e : CueEntry) (s : State) : (applyEntry e s).2.library = s.library := by
  unfold applyEntry
  split
  · split
    · unfold State.doLoad; split
      · split <;> simp
      · split <;> simp
      all_goals rfl
    · rfl
  · unfold State.doStart; split <;> simp [State.resume]
  · unfold State.doStopSpill; split <;> simp [State.toSpilling]
  · unfold State.doStopCut; split <;> simp [State.toCutting]
  · unfold State.doHold; split <;> simp
  · unfold State.doUnhold; split <;> simp
  · split
    · unfold State.doSet; split
      · rfl
      · split <;> simp
    · rfl

/-- The entries leave the library. -/
@[simp] theorem applyEntries_library (es : List CueEntry) :
    ∀ (k : Nat) (c : CueCounts) (s : State), (applyEntries k es c s).2.library = s.library := by
  induction es with
  | nil => intro k c s; rfl
  | cons e es ih =>
    intro k c s
    simp only [applyEntries, ih]
    split <;> simp

/-- The application event leaves the library. -/
@[simp] theorem State.applyCue_library (s : State) : s.applyCue.library = s.library := by
  unfold State.applyCue State.completeCue State.answerGo
  split
  · simp only []
    split <;> simp
  · rfl

/-- What entries leave of the link, the cue unit and the pin: all of it, but for the reply of a line access that they abort (R166). -/
structure State.OnlyAborts (s t : State) : Prop where
  resetPin : t.resetPin = s.resetPin
  cue      : t.cue = s.cue
  link     : (t.link = s.link ∧ t.access = s.access) ∨
    ∃ a r, s.access = some a ∧ t.access = none ∧ t.link = (s.place r).link

/-- Nothing aborted. -/
theorem State.OnlyAborts.same {s t : State} (hp : t.resetPin = s.resetPin) (hc : t.cue = s.cue) (hl : t.link = s.link)
    (ha : t.access = s.access) : s.OnlyAborts t :=
  ⟨hp, hc, .inl ⟨hl, ha⟩⟩

/-- One after the other: an access is aborted once. -/
theorem State.OnlyAborts.trans {s t u : State} (h : s.OnlyAborts t) (k : t.OnlyAborts u) : s.OnlyAborts u where
  resetPin := k.resetPin.trans h.resetPin
  cue := k.cue.trans h.cue
  link := by
    rcases h.link with ⟨hl, ha⟩ | ⟨a, r, ha, hn, hl⟩
    · rcases k.link with ⟨kl, ka⟩ | ⟨a, r, ka, kn, kl⟩
      · exact .inl ⟨kl.trans hl, ka.trans ha⟩
      · exact .inr ⟨a, r, ha ▸ ka, kn, by rw [kl]; simp [State.place, hl]⟩
    · rcases k.link with ⟨kl, ka⟩ | ⟨b, q, kb, -, -⟩
      · exact .inr ⟨a, r, ha, ka.trans hn, kl.trans hl⟩
      · simp [hn] at kb

/-- Aborting an access does no more. -/
theorem State.abortAccessOf_onlyAborts (i : InstNo) (s : State) : s.OnlyAborts (s.abortAccessOf i) := by
  unfold State.abortAccessOf State.endAccess
  cases ha : s.access with
  | none => exact .same rfl rfl rfl rfl
  | some a =>
    by_cases hi : a.inst = i
    · simp only [hi, ↓reduceIte]
      exact ⟨rfl, rfl, .inr ⟨a, _, ha, rfl, rfl⟩⟩
    · simp only [hi, ↓reduceIte]
      exact .same rfl rfl rfl rfl

/-- An entry does no more to the link, the cue unit and the pin. -/
theorem applyEntry_onlyAborts (e : CueEntry) (s : State) : s.OnlyAborts (applyEntry e s).2 := by
  unfold applyEntry
  split
  · split
    · unfold State.doLoad; split
      · split <;> exact .same rfl rfl rfl rfl
      · split <;> exact .same rfl rfl rfl rfl
      all_goals exact .same rfl rfl rfl rfl
    · exact .same rfl rfl rfl rfl
  · unfold State.doStart; split <;> exact .same (by simp [State.resume]) (by simp [State.resume]) (by simp [State.resume]) (by simp [State.resume])
  · unfold State.doStopSpill; split
    all_goals first
      | exact (s.abortAccessOf_onlyAborts _).trans (.same rfl rfl rfl rfl)
      | exact .same (by simp [State.toSpilling]) (by simp [State.toSpilling]) (by simp [State.toSpilling]) (by simp [State.toSpilling])
  · unfold State.doStopCut; split
    all_goals first
      | exact (s.abortAccessOf_onlyAborts _).trans (.same rfl rfl rfl rfl)
      | exact .same (by simp [State.toCutting]) (by simp [State.toCutting]) (by simp [State.toCutting]) (by simp [State.toCutting])
  · unfold State.doHold; split <;> exact .same rfl rfl rfl rfl
  · unfold State.doUnhold; split
    all_goals first
      | exact (s.abortAccessOf_onlyAborts _).trans (.same rfl rfl rfl rfl)
      | exact .same rfl rfl rfl rfl
  · split
    · unfold State.doSet; split
      · exact .same rfl rfl rfl rfl
      · split <;> exact .same rfl rfl rfl rfl
    · exact .same rfl rfl rfl rfl

/-- The entries do no more to the link, the cue unit and the pin. -/
theorem applyEntries_onlyAborts (es : List CueEntry) :
    ∀ (k : Nat) (c : CueCounts) (s : State), s.OnlyAborts (applyEntries k es c s).2 := by
  induction es with
  | nil => intro k c s; exact .same rfl rfl rfl rfl
  | cons e es ih =>
    intro k c s
    simp only [applyEntries]
    split
    · exact (applyEntry_onlyAborts e s).trans (ih _ _ _)
    · exact ih _ _ _

/-- A request that can be taken before the application event can be taken after it, where one place is reserved for each request in
flight. -/
theorem State.applyCue_canTake {s : State} {f : Frame} {rest : List Frame} (h : CanTake s f rest) (hi : LinkInv s) :
    CanTake s.applyCue f rest := by
  unfold State.applyCue
  split
  · have hr := hi.reserved
    have hp := h.place
    have w := applyEntries_onlyAborts s.cue.fired 0 CueCounts.zero s
    generalize applyEntries 0 s.cue.fired CueCounts.zero s = o at w ⊢
    have hin := w.link
    simp only [State.completeCue, State.answerGo, w.cue]
    unfold State.inFlight at hr
    have key : o.2.link.inbox = s.link.inbox ∧
        o.2.link.sendOrder.length + o.2.link.reserved = s.link.sendOrder.length + s.link.reserved ∧
        (∀ g, s.cue.origin = some (.request g) → 1 ≤ o.2.link.reserved) := by
      rcases hin with ⟨hl, -⟩ | ⟨a, r, ha, -, hl⟩
      · refine ⟨by rw [hl], by rw [hl], fun g hg => ?_⟩
        rw [hl]; simp only [hg] at hr; omega
      · simp only [ha, Option.isSome_some, ↓reduceIte] at hr
        refine ⟨by rw [hl]; rfl, ?_, fun g hg => ?_⟩
        · rw [hl]; simp only [State.place, List.length_append, List.length_singleton]; omega
        · rw [hl]; simp only [State.place]; simp only [hg] at hr; omega
    obtain ⟨k1, k2, k3⟩ := key
    have hs : ∀ g, s.cue.origin = some (.request g) → o.2.link.sendOrder.length + 1 + (o.2.link.reserved - 1) < 4 := by
      intro g hg; have := k3 g hg; omega
    constructor
    · split <;> simp [w.resetPin, h.released]
    · split <;> simp [k1, h.head]
    · split
      · next g hg => simpa using hs g hg
      all_goals simp only [State.raise_link]; omega
  · exact h

/-- The application event leaves no application event due (R129). -/
@[simp] theorem State.applyCue_due (s : State) : s.applyCue.cue.due = false := by
  unfold State.applyCue State.completeCue
  split
  · rfl
  · next h => simpa using h

/-! ### A request that changes library slots (R137, R143, R146) -/

/-- Everything such a request can do: it is taken, and before it the application event where a LOAD entry that is due would read what the
request changes. -/
theorem State.libraryRequest_cases (taken : State → State) (s : State) :
    (s.loadDiffers (taken s) = true ∧ s.libraryRequest taken = taken s.applyCue) ∨
      (s.loadDiffers (taken s) = false ∧ s.libraryRequest taken = taken s) := by
  unfold State.libraryRequest
  cases h : s.loadDiffers (taken s) <;> simp

/-- Where no application event is due, the request is taken and nothing else happens. -/
theorem State.libraryRequest_of_not_due {s : State} (h : s.cue.due = false) (taken : State → State) :
    s.libraryRequest taken = taken s := by
  simp [State.libraryRequest, State.loadDiffers, h]

/-- What two states differ in for a LOAD entry that is due. -/
theorem State.loadDiffers_iff {s t : State} :
    s.loadDiffers t = true ↔ s.cue.due = true ∧ ∃ e ∈ s.cue.fired, e.action = .load ∧
      ∃ k, slotOf e.slot = some k ∧ s.libSlot k ≠ t.libSlot k := by
  simp [State.loadDiffers, Option.any_eq_true]

/-- A request that leaves the library is taken as it is. -/
theorem State.libraryRequest_of_library {taken : State → State} {s : State} (h : (taken s).library = s.library) :
    s.libraryRequest taken = taken s := by
  rcases State.libraryRequest_cases taken s with ⟨hd, -⟩ | ⟨-, he⟩
  · obtain ⟨-, e, -, -, k, -, hk⟩ := State.loadDiffers_iff.mp hd
    exact absurd (by simp [State.libSlot, h]) hk
  · exact he

end Sys2Proof.Machine
end

