-- ==== Sys2Proof/Laws/Notices.lean ====
section
/-! SUPPORT. The notice unit: what raising a condition can do (R197). -/

namespace Sys2Proof.Machine

/-- A condition of a disabled group is lost (R197). -/
theorem Notices.raise_disabled {c : Condition} {n : Notices} (h : (n.config c.group).enabled = false) : n.raise c = n := by
  simp [Notices.raise, h]

/-- A condition of an enabled group is latched (R197). -/
theorem Notices.raise_enabled {c : Condition} {n : Notices} (h : (n.config c.group).enabled = true) :
    n.raise c = n.latch c := by
  simp [Notices.raise, h]

/-- Latching a condition changes no group's configuration. -/
@[simp] theorem Notices.config_latch (c : Condition) (n : Notices) (g : Group) : (n.latch c).config g = n.config g := by
  cases c <;> cases g <;> rfl

/-- Raising a condition changes no group's configuration. -/
@[simp] theorem Notices.config_raise (c : Condition) (n : Notices) (g : Group) : (n.raise c).config g = n.config g := by
  unfold Notices.raise; split <;> simp

/-- Raising a condition leaves the flags of every other group as they were. -/
theorem Notices.flags_raise_of_ne {c : Condition} {g : Group} (h : g ≠ c.group) (n : Notices) :
    (n.raise c).flags g = n.flags g := by
  unfold Notices.raise
  split
  · cases c <;> cases g <;> first | rfl | exact absurd rfl h
  · rfl

/-- Setting a group's configuration is seen in that group alone. -/
theorem Notices.config_setConfig (g h : Group) (c : GroupConfig) (n : Notices) :
    (n.setConfig g c).config h = if h = g then c else n.config h := by
  cases g <;> cases h <;> rfl

/-- Setting a group's configuration changes no flag (R198). -/
@[simp] theorem Notices.flags_setConfig (g h : Group) (c : GroupConfig) (n : Notices) :
    (n.setConfig g c).flags h = n.flags h := by
  cases g <;> cases h <;> rfl

/-- Every flag clear leaves every configuration (R195). -/
@[simp] theorem Notices.config_clearAll (n : Notices) (g : Group) : n.clearAll.config g = n.config g := by
  cases g <;> rfl

/-- Every flag clear leaves no group pending (R195). -/
@[simp] theorem Notices.pending_clearAll (n : Notices) (g : Group) : n.clearAll.pending g = false := by
  cases g <;> rfl

/-- A cleared group keeps every configuration (R200). -/
@[simp] theorem Notices.config_clearGroup (g h : Group) (flags : Nat) (bits : List Byte) (n : Notices) :
    (n.clearGroup g flags bits).config h = n.config h := by
  cases g <;> cases h <;> rfl

end Sys2Proof.Machine
end

