-- ==== Sys2Proof/Laws/Pool.lean ====
section
/-! SUPPORT. The page pool: what a grant and a return of pages do to lists, tables and everything else (R4, R5, R8, R9). -/

namespace Sys2Proof.Machine

/-- Owner entries are written in place: the table keeps its size. -/
@[simp] theorem setOwners_length (ps : List Nat) (o : Option Owner) (t : List (Option Owner)) :
    (setOwners ps o t).length = t.length := by
  unfold setOwners
  induction ps generalizing t with
  | nil => rfl
  | cons p ps ih => simp [ih]

/-- An owner entry after some are written: the new one for a page named, its own otherwise (R5). -/
theorem setOwners_getElem? (ps : List Nat) (o : Option Owner) (t : List (Option Owner)) (q : Nat) :
    (setOwners ps o t)[q]? = if q ∈ ps ∧ q < t.length then some o else t[q]? := by
  unfold setOwners
  induction ps generalizing t with
  | nil => simp
  | cons p ps ih =>
    simp only [List.foldl_cons, ih, List.length_set, List.mem_cons, List.getElem?_set]
    by_cases h : p = q
    · subst h
      by_cases hl : p < t.length <;> by_cases hm : p ∈ ps <;> simp [hl, hm]
    · by_cases hm : q ∈ ps <;> simp [h, Ne.symm h, hm]

/-- A grant of a NEAR line: pages from the head of the NEAR list, in order, with W and F at 0 (R8, R27). -/
theorem grantLine_near (i : InstNo) (j n : Nat) (r : Run) :
    grantLine i j .near n r =
      ({ w := 0, f := 0, pool := .near, pages := r.nearFree.take n },
       { r with nearFree := r.nearFree.drop n, nearOwner := setOwners (r.nearFree.take n) (some ⟨i, j⟩) r.nearOwner }) := rfl

/-- A grant of a FAR line: pages from the head of the FAR list, in order, with W and F at 0 (R8, R27). -/
theorem grantLine_far (i : InstNo) (j n : Nat) (r : Run) :
    grantLine i j .far n r =
      ({ w := 0, f := 0, pool := .far, pages := r.farFree.take n },
       { r with farFree := r.farFree.drop n, farOwner := setOwners (r.farFree.take n) (some ⟨i, j⟩) r.farOwner }) := rfl

/-- A grant of one line leaves the setup record and the budget. -/
theorem grantLine_keeps (i : InstNo) (j : Nat) (p : Pool) (n : Nat) (r : Run) :
    (grantLine i j p n r).2.rate = r.rate ∧ (grantLine i j p n r).2.farSize = r.farSize ∧
      (grantLine i j p n r).2.polarity = r.polarity ∧ (grantLine i j p n r).2.budgetInUse = r.budgetInUse := by
  cases p <;> exact ⟨rfl, rfl, rfl, rfl⟩

/-- A grant of all the lines of an instance leaves the setup record and the budget. -/
theorem grantLines_keeps (i : InstNo) (ls : List (Pool × Nat)) : ∀ (j : Nat) (r : Run),
    (grantLines i j ls r).2.rate = r.rate ∧ (grantLines i j ls r).2.farSize = r.farSize ∧
      (grantLines i j ls r).2.polarity = r.polarity ∧ (grantLines i j ls r).2.budgetInUse = r.budgetInUse := by
  induction ls with
  | nil => intro j r; exact ⟨rfl, rfl, rfl, rfl⟩
  | cons l ls ih =>
    obtain ⟨p, n⟩ := l
    intro j r
    have h1 := grantLine_keeps i j p n r
    have h2 := ih (j + 1) (grantLine i j p n r).2
    simp only [grantLines]
    exact ⟨h2.1.trans h1.1, h2.2.1.trans h1.2.1, h2.2.2.1.trans h1.2.2.1, h2.2.2.2.trans h1.2.2.2⟩

/-- Each line granted has its running fields (R8). -/
theorem grantLines_length (i : InstNo) (ls : List (Pool × Nat)) : ∀ (j : Nat) (r : Run),
    (grantLines i j ls r).1.length = ls.length := by
  induction ls with
  | nil => intro j r; rfl
  | cons l ls ih => obtain ⟨p, n⟩ := l; intro j r; simp [grantLines, ih]

/-- Every line granted starts with W and F at 0, in the pool it was resolved to (R8, R27). -/
theorem grantLines_start (i : InstNo) (ls : List (Pool × Nat)) : ∀ (j : Nat) (r : Run),
    (grantLines i j ls r).1.map (fun l => (l.w, l.f, l.pool)) = ls.map fun x => (0, 0, x.1) := by
  induction ls with
  | nil => intro j r; rfl
  | cons l ls ih =>
    obtain ⟨p, n⟩ := l
    intro j r
    cases p <;> simp [grantLines, ih, grantLine]

/-- A return of one line leaves the setup record and the budget. -/
theorem returnLine_keeps (l : LineRun) (r : Run) :
    (returnLine l r).rate = r.rate ∧ (returnLine l r).farSize = r.farSize ∧ (returnLine l r).polarity = r.polarity ∧
      (returnLine l r).budgetInUse = r.budgetInUse := by
  unfold returnLine
  split <;> exact ⟨rfl, rfl, rfl, rfl⟩

/-- A return of all the lines of an instance leaves the setup record and the budget. -/
theorem returnLines_keeps (ls : List LineRun) (r : Run) :
    (returnLines ls r).rate = r.rate ∧ (returnLines ls r).farSize = r.farSize ∧ (returnLines ls r).polarity = r.polarity ∧
      (returnLines ls r).budgetInUse = r.budgetInUse := by
  unfold returnLines
  induction ls generalizing r with
  | nil => exact ⟨rfl, rfl, rfl, rfl⟩
  | cons l ls ih =>
    have h1 := returnLine_keeps l r
    have h2 := ih (returnLine l r)
    exact ⟨h2.1.trans h1.1, h2.2.1.trans h1.2.1, h2.2.2.1.trans h1.2.2.1, h2.2.2.2.trans h1.2.2.2⟩

end Sys2Proof.Machine
end

