-- ==== Sys2Proof/Laws/Requests.lean ====
section
/-! SUPPORT. Taking a request: what the request handler's operations can do, said once. -/

namespace Sys2Proof.Machine

/-! ### The oldest frame taken (R189) -/

/-- Where a request can be taken, the oldest frame is, with a place reserved for it. -/
theorem State.takeHead_of_canTake {s : State} {f : Frame} {rest : List Frame} (h : CanTake s f rest) :
    s.takeHead = some (f, s.takenInFlight rest) := by
  have hp : s.link.sendOrder.length + s.link.reserved < outboxPlaces := h.place
  simp [State.takeHead, h.released, h.head, hp, State.takenInFlight]

/-- A frame is taken only where a request can be taken, and all that taking it does is to remove it and reserve a place. -/
theorem State.takeHead_cases {s t : State} {f : Frame} (h : s.takeHead = some (f, t)) :
    ∃ rest, CanTake s f rest ∧ t = s.takenInFlight rest := by
  unfold State.takeHead at h
  split at h
  · cases h
  · next hr =>
    split at h
    · cases h
    · next g rest hi =>
      split at h
      · next hp =>
        obtain ⟨rfl, rfl⟩ : g = f ∧ _ = t := by simpa using h
        exact ⟨rest, ⟨by simpa using hr, hi, hp⟩, rfl⟩
      · cases h

/-! ### Checks (R189) -/

/-- A request passes the checks of the request handler where its body has the length of its kind and its kind is served in the
part state. -/
theorem State.precheck_eq_none {k : Kind} {f : Frame} {s : State} (hl : k.lengthOk f.body = true)
    (hr : s.run = none → k.servedInSetup = true) (hs : ∀ r, s.run = some r → k ≠ .setup) : s.precheck k f = none := by
  unfold State.precheck
  rw [if_pos hl]
  split
  · next h =>
    have h2 := hr h
    rw [if_neg (by rintro rfl; simp [Kind.servedInSetup] at h2), if_pos h2]
  · next r h => rw [if_neg (hs r h)]

/-! ### A request of a row (R189) -/

/-- A request-taken event of a row, where a request can be taken. -/
theorem serve_of_canTake {k : Kind} {mine : Frame → Bool} {owner : Frame → State → State} {s : State} {f : Frame}
    {rest : List Frame} (h : CanTake s f rest) :
    serve k mine owner s =
      if Kind.ofByte f.kind = some k ∧ mine f = true then
        match (s.takenInFlight rest).precheck k f with
        | some st => (s.takenInFlight rest).answer f st []
        | none => owner f (s.takenInFlight rest)
      else s := by
  unfold serve
  rw [State.takeHead_of_canTake h] <;> rfl

/-- A request that its row takes and that passes the checks is handed to its owner. -/
theorem serve_owner {k : Kind} {mine : Frame → Bool} {owner : Frame → State → State} {s : State} {f : Frame}
    {rest : List Frame} (h : CanTake s f rest) (hk : Kind.ofByte f.kind = some k) (hm : mine f = true)
    (hp : (s.takenInFlight rest).precheck k f = none) : serve k mine owner s = owner f (s.takenInFlight rest) := by
  rw [serve_of_canTake h, if_pos ⟨hk, hm⟩, hp]

/-- Everything a request-taken event of a row can do: nothing, a refusal of the request handler, or its owner's work. -/
theorem serve_cases (k : Kind) (mine : Frame → Bool) (owner : Frame → State → State) (s : State) :
    serve k mine owner s = s ∨
      ∃ f rest, CanTake s f rest ∧ Kind.ofByte f.kind = some k ∧ mine f = true ∧
        ((∃ st, (s.takenInFlight rest).precheck k f = some st ∧
            serve k mine owner s = (s.takenInFlight rest).answer f st []) ∨
          ((s.takenInFlight rest).precheck k f = none ∧ serve k mine owner s = owner f (s.takenInFlight rest))) := by
  unfold serve
  split
  · exact .inl rfl
  · next f t ht =>
    obtain ⟨rest, hc, rfl⟩ := State.takeHead_cases ht
    split
    · next hkm =>
      refine .inr ⟨f, rest, hc, hkm.1, hkm.2, ?_⟩
      split
      · next st hst => exact .inl ⟨st, hst, rfl⟩
      · next hst => exact .inr ⟨hst, rfl⟩
    · exact .inl rfl

/-! ### Answers (R186, R187) -/

/-- A request answered at once leaves the reserved count as it was before it was taken. -/
theorem State.answer_takenInFlight (f : Frame) (rest : List Frame) (st : Status) (b : List Byte) (s : State) :
    (s.takenInFlight rest).answer f st b = s.replied f rest st b := rfl

/-- An effect on the instance table and an answer. -/
theorem State.answer_modInst_takenInFlight (f : Frame) (rest : List Frame) (st : Status) (b : List Byte) (i : InstNo)
    (g : Inst → Inst) (s : State) :
    ((s.takenInFlight rest).modInst i g).answer f st b = (s.modInst i g).replied f rest st b := rfl

/-- An effect on a library slot and an answer. -/
theorem State.answer_setLibSlot_takenInFlight (f : Frame) (rest : List Frame) (st : Status) (b : List Byte) (k : SlotNo)
    (x : LibSlot) (s : State) :
    ((s.takenInFlight rest).setLibSlot k x).answer f st b = (s.setLibSlot k x).replied f rest st b := rfl

/-- Taking a request changes no instance. -/
@[simp] theorem State.takenInFlight_inst (rest : List Frame) (s : State) (i : InstNo) :
    (s.takenInFlight rest).inst i = s.inst i := rfl

/-- Taking a request changes no library slot. -/
@[simp] theorem State.takenInFlight_libSlot (rest : List Frame) (s : State) (k : SlotNo) :
    (s.takenInFlight rest).libSlot k = s.libSlot k := rfl

/-- Answering a request changes no instance. -/
@[simp] theorem State.replied_inst (f : Frame) (rest : List Frame) (st : Status) (b : List Byte) (s : State) (i : InstNo) :
    (s.replied f rest st b).inst i = s.inst i := rfl

/-! ### Operand bytes -/

/-- The byte that names an instance names it. -/
@[simp] theorem instOf_instByte (i : InstNo) : instOf (instByte i) = some i := by
  revert i; decide

/-- The byte that names a library slot names it. -/
@[simp] theorem slotOf_slotByte (k : SlotNo) : slotOf (slotByte k) = some k := by
  revert k; decide

/-- A byte that names an instance is that instance's byte. -/
theorem instOf_eq_some {b : Byte} {i : InstNo} (h : instOf b = some i) : b = instByte i := by
  unfold instOf at h
  split at h
  · cases h; simp [instByte]
  · cases h

/-- Reading back a field written most significant byte first. -/
theorem beBytes_length (k n : Nat) : (beBytes k n).length = k := by
  induction k with
  | zero => rfl
  | succ k ih => simp [beBytes, ih]

end Sys2Proof.Machine
end

