-- ==== Sys2Proof/WellFormed.lean ====
section
/-! DEFINITION. Which commands are well formed: operands that the event of the row can carry. -/

namespace Sys2Proof

/-- An upset names a DRAM word (R3: addresses 0 to 8,388,607) and inverts at least one of its 30 bits. -/
def Upset.wf (u : Upset) : Bool :=
  decide (u.addr < 8388608) && (u.sample != 0 || u.code != 0)

/-- Upsets of one event name each word once. -/
def upsetsWf (us : List Upset) : Bool :=
  us.all Upset.wf && decide (us.map Upset.addr).Nodup

/-- The order of a frame names no instance twice (R24: each is processed once). -/
def FrameEnv.wf (e : FrameEnv) : Bool :=
  decide e.order.Nodup && upsetsWf e.upsets

/-- STRAY_BYTE is a byte that is neither fill nor SYNC (R183). -/
def strayWf (b : Byte) : Bool :=
  b != 0x00 && b != 0xA9

/-- The commands whose operands fit their row. -/
def Instr.wf : Instr → Bool
  | .powerUp => true
  | .resetPinAssert => true
  | .resetPinRelease => true
  | .requestFrameComplete _ => true
  | .strayByte b => strayWf b
  | .lenRejected _ => true
  | .lselDeassert => true
  | .replySent => true
  | .unknownKind => true
  | .identify => true
  | .partStatus => true
  | .setup env => upsetsWf env.upsets
  | .softReset => true
  | .poolStatus => true
  | .store => true
  | .fetch => true
  | .erase => true
  | .protect => true
  | .list => true
  | .load => true
  | .unload => true
  | .start => true
  | .stopSpill => true
  | .stopCut => true
  | .hold => true
  | .unhold => true
  | .set => true
  | .get => true
  | .instanceStatus => true
  | .cueAdd => true
  | .cueClear => true
  | .cueList => true
  | .go => true
  | .goPin => true
  | .cueApplication => true
  | .tempoSet => true
  | .tempoGet => true
  | .tapMode => true
  | .tapEdge => true
  | .memErrors => true
  | .lineRead => true
  | .lineWrite => true
  | .noticeRead => true
  | .noticeClear => true
  | .noticeConfig => true
  | .afsEdge _ _ env => env.wf
  | .edgeWatchExpiry env => env.wf
  | .internalFrameTimer env => env.wf
  | .holdover => true
  | .lockRestored => true
  | .windowEnd _ => true
  | .tailDecision _ => true
  | .release _ => true
  | .serviceEvent us => upsetsWf us
  | .frameBegins => true
  | .lenAccepted _ => true
  | .byteKept _ => true
  | .replyByteSent => true

end Sys2Proof
end

