-- ==== Sys2Proof/Tests/Slice0.lean ====
section
/-! SUPPORT. The model's own tests: the well-formedness smoke, small tests whose expected results are the spec's own worked examples and
tables, and for every statement with hypotheses a witness: a concrete state and operands that meet them, for each clause. -/

namespace Sys2Proof.Tests

open Sys2Proof.Machine

/- One theorem at a time: each `decide +kernel` would else hold a thread of its own while it waits for those before it. -/
set_option Elab.async false

/-! ### Small states and readings -/

/-- A request frame with TAG 0x5A. -/
def frame (k : Byte) (body : List Byte) : Frame := ⟨0x5A, k, body⟩

/-- A state whose inbox holds one request. -/
def asked (k : Byte) (body : List Byte) (s : State) : State :=
  { s with link := { s.link with inbox := [frame k body] } }

/-- Status and body of the last reply of an outcome. -/
def lastReply (o : Out) : Option (Status × List Byte) :=
  match o with
  | .next t => t.link.sendOrder.getLast?.map fun r => (r.status, r.body)
  | _ => none

/-- What a request is answered. -/
def answers (c : Instr) (k : Byte) (body : List Byte) (s : State) : Option (Status × List Byte) :=
  lastReply (exec c (asked k body s))

/-- A reading of the next state. -/
def after {α : Type} (g : State → α) (o : Out) : Option α :=
  match o with
  | .next t => some (g t)
  | _ => none

/-- A tap of line 0 at 640 q8 units. -/
def tap : TapProg :=
  { line := 0, source := .fixed, fixed := 640, ticks := 1, lfo := .none, depth := 0, gain := 32767, damp := 0, dest := .outA,
    hold := false }

/-- The program of "the first frames after admission" (02): one NEAR line of 1 page with feed A, one tap at 640 q8 units. -/
def program : Program :=
  { name := 0x41 :: List.replicate 15 0, lines := [⟨.near, 1, .a⟩],
    taps := [tap],
    lfo0 := ⟨10, .triangle, 0⟩, lfo1 := ⟨10, .triangle, 0⟩, inGain := 32767, outGain := 32767, glide := 0, tailFloor := 2,
    quiet := 4, spillLimit := 100 }

/-- Its running fields after an admission on NEAR page 0. -/
def running : Running :=
  { lines := [⟨0, 0, .near, [0]⟩], taps := [⟨640, 640, 32767, 0, 0⟩], lfo0 := ⟨0, 895⟩, lfo1 := ⟨0, 895⟩, inGain := 0,
    outGain := 32767, cost := 0, windowProgress := 0, windowPeak := 0 }

/-- Instance 0 in a state, loaded from slot 0. -/
def instIn (st : InstState) : Inst :=
  { Inst.emptyWith Routing.none with
    state := st, slot := if st = .empty then none else some 0, program := if st = .empty then none else some program,
    running := if st.holdsPages then some running else none }

/-- The part in RUN with nothing granted. -/
def idleRun : Run := Run.build .r48 .p1024 .activeLow

/-- The part in RUN with NEAR page 0 granted to line 0 of instance 0. -/
def busyRun : Run :=
  { idleRun with nearFree := (List.range 31).map (· + 1), nearOwner := some ⟨0, 0⟩ :: List.replicate 31 none }

/-- The part in RUN with instance 0 in a state and every other one EMPTY. -/
def part (st : InstState) : State :=
  { State.reset with
    run := some (if st.holdsPages then busyRun else idleRun), instances := State.reset.instances.set 0 (instIn st),
    queue := if st = .waiting then [0] else [], spill := if st = .spilling then [0] else [] }

/-- A part in RUN with few pages, for tests that count none. -/
def small (st : InstState) : State :=
  { part st with run := some { idleRun with nearFree := [3, 4], farFree := [7], nearOwner := [], farOwner := [] } }

/-- A library with one record in slot 0. -/
def stocked (s : State) : State :=
  s.setLibSlot 0 ⟨some ⟨program.record, program⟩, false⟩

theorem canTake (k : Byte) (body : List Byte) {s : State} (h1 : s.resetPin = false)
    (h2 : s.link.sendOrder.length + s.link.reserved < 4) : CanTake (asked k body s) (frame k body) [] :=
  ⟨h1, rfl, h2⟩

/-! ### Well-formedness: each check refuses an ill-formed term -/

theorem test_wf_accepts : (Instr.serviceEvent [⟨8388607, 0, 1⟩]).wf = true ∧ (Instr.strayByte 0x55).wf = true := by decide
theorem test_wf_upset_address : (Instr.serviceEvent [⟨8388608, 1, 0⟩]).wf = false := by decide
theorem test_wf_upset_of_nothing : (Instr.setup ⟨0, [⟨0, 0, 0⟩]⟩).wf = false := by decide
theorem test_wf_upset_twice : (Instr.serviceEvent [⟨5, 1, 0⟩, ⟨5, 2, 0⟩]).wf = false := by decide
theorem test_wf_order_twice : (Instr.internalFrameTimer ⟨[3, 3], [], none⟩).wf = false := by decide
theorem test_wf_frame_upset : (Instr.edgeWatchExpiry ⟨[], [⟨0, 0, 0⟩], some 0⟩).wf = false := by decide
theorem test_wf_stray_fill : (Instr.strayByte 0x00).wf = false := by decide
theorem test_wf_stray_sync : (Instr.strayByte 0xA9).wf = false := by decide

/-! ### Arithmetic and tables from the spec's examples -/

/-- 02, first worked example: the read, the damp, the output and the write value of one frame. -/
theorem test_echo_arithmetic :
    interpolate 1000000 1256000 150 = 1150000 ∧ dampStep 8192 1000000 990000 = 997500 ∧
      sat24 (round15 (575000 * 32767)) = 574982 ∧ sat24 (round15 78608232500) = 2398933 := by decide

/-- 09, the shortest path: 999,969, then 999,938 and 999,907. -/
theorem test_shortest_path :
    round15 32767000000 = 999969 ∧ round15 32765984223 = 999938 ∧ round15 32764968446 = 999907 := by decide

/-- R42: MID rounds toward minus infinity. -/
theorem test_mid : fedInput .mid 3 4 = 3 ∧ fedInput .mid (-3) (-4) = -4 := by decide

/-- R58: tempo targets at 48,000 Hz. -/
theorem test_tempo_targets :
    tempoTarget .r48 12000 36 = 4608000 ∧ tempoTarget .r48 12500 16 = 1966080 ∧ tempoTarget .r96 3000 384 = 67108352 := by
  decide

/-- R66: floor of negative products. -/
theorem test_mod_offset :
    modOffset { tap with lfo := .lfo0, depth := 301 } (-16384) 0 = -151 ∧
      modOffset { tap with lfo := .lfo0, depth := 300 } (-1) 0 = -1 := by decide

/-- R111: the levels of five peaks. -/
theorem test_levels : ([255, 256, 700, 12000, 4194304].map levelCode) = [0, 1, 2, 6, 15] := by decide

/-- R112: one level above the floor neither extends nor breaks the run. -/
theorem test_quiet : quietAfter 2 2 1 = 2 ∧ quietAfter 2 3 1 = 1 ∧ quietAfter 2 4 1 = 0 := by decide

/-- R149: the code of one sample bit is its set, and codes combine by exclusive or. -/
theorem test_check_code : checkCode 1 = 0b000111 ∧ checkCode 0x800000 = 0b111011 ∧ checkCode 0x000003 = 0b001100 := by decide

/-- R98: eight FAR lines of 128 pages with 32 taps demand 1024 pages and cost 72. -/
theorem test_largest_program :
    (fitTest { program with lines := List.replicate 8 ⟨.far, 128, .a⟩, taps := List.replicate 32 tap }
      ⟨1024, 32, 768⟩).2 = ⟨1024, 0, 72⟩ := by decide

/-- R205, the 18 bytes: a group's own bits. -/
theorem test_group_codes : (Group.all.map Group.code) = [0, 1, 2, 3, 4, 5] ∧ Group.ofCode 6 = none := by decide

/-! ### One step each -/

theorem test_power_up : after State.powerUps (exec .powerUp (small .running)) = some 1 := by decide
theorem test_reset_pin : after State.resetPin (exec .resetPinAssert (small .held)) = some true := by decide
theorem test_release_pin : after State.resetPin (exec .resetPinRelease { State.reset with resetPin := true }) = some false := by
  decide
theorem test_idle : after State.powerUps (step State.reset) = some 0 := by decide
theorem test_front : after State.powerUps (step { State.reset with pending := [.powerUp, .goPin] }) = some 1 := by decide

/-- R183: LEN 2 opens a body of two bytes, and its last byte completes the frame. -/
theorem test_receive :
    after (fun t => t.link.inbox) (exec (.requestFrameComplete 1) (State.reset.setReceiver (.body 1 [0x77]))) =
      some [⟨0x77, 1, []⟩] ∧
    after (fun t => t.link.receiver) (exec (.lenAccepted 2) (State.reset.setReceiver (.length (some 0)))) =
      some (.body 2 []) := by decide

theorem test_stray : after (fun t => t.notices.badFrame) (exec (.strayByte 0x13) State.reset) = some (some .stray) := by decide
theorem test_len_rejected :
    after (fun t => t.notices.badFrame) (exec (.lenRejected 1) (State.reset.setReceiver (.length (some 0)))) =
      some (some .length) := by decide
theorem test_deselect :
    after (fun t => t.notices.badFrame) (exec .lselDeassert (State.reset.setReceiver (.length none))) =
      some (some .deselect) := by decide
theorem test_reply_bytes : (Reply.bytes ⟨5, 0x81, .ok, [1, 2]⟩) = [0xA9, 0, 5, 5, 0x81, 0, 1, 2] := by decide
theorem test_unknown : answers .unknownKind 0x7F [] State.reset = some (.unknownKind, []) := by decide
theorem test_identify :
    answers .identify 0x01 [] State.reset =
      some (.ok, [0x5A, 0x45, 0x33, 0x32, 0x32, 0x34, 1, 24, 64, 32, 32, 2, 4, 0x04, 0x00]) := by decide
theorem test_setup_domain : answers (.setup ⟨0, []⟩) 0x03 (u4 44100 ++ u2 1024 ++ u1 0) State.reset = some (.badArg, []) := by decide
theorem test_setup :
    answers (.setup ⟨0, []⟩) 0x03 (u4 96000 ++ u2 1024 ++ u1 0) State.reset =
      some (.ok, u4 96000 ++ u2 1024 ++ u1 0 ++ [3, 0]) := by decide +kernel
theorem test_setup_absent :
    answers (.setup ⟨0, [⟨0, 1, 0⟩]⟩) 0x03 (u4 48000 ++ u2 1024 ++ u1 0) State.reset = some (.memoryAbsent, []) := by
  decide +kernel
theorem test_soft_reset_setup : answers .softReset 0x04 [] State.reset = some (.badState, []) := by decide
theorem test_pool_status_setup : answers .poolStatus 0x05 [] State.reset = some (.notReady, []) := by decide
theorem test_store : answers .store 0x10 (0 :: program.record) State.reset = some (.ok, [0]) := by decide +kernel
/-- 07, the field indices of two lines and three taps: 9 to 14 the lines, 15 to 44 the taps, 45 to 50 the LFOs, 51 the length. -/
theorem test_store_indices :
    (let r := ({ program with lines := List.replicate 2 ⟨.far, 1, .a⟩, taps := List.replicate 3 tap } : Program).record
     recordFault r = none ∧ recordFault r.dropLast = some 51 ∧ recordFault (r.set 37 0) = some 13 ∧
       recordFault (r.set 70 0x1C) = some 43 ∧ recordFault (r.set 84 0xFF) = some 48) := by decide +kernel
/-- R139: a record too short for its counts fails at the length field, index 15 + 3 × lines + 10 × taps. -/
theorem test_store_length :
    answers .store 0x10 (0 :: program.record.dropLast) State.reset = some (.badRecord, [0, 0, 28]) := by decide +kernel
theorem test_fetch : answers .fetch 0x11 [0] (stocked State.reset) = some (.ok, 0 :: program.record) := by decide +kernel
theorem test_erase : answers .erase 0x12 [64] State.reset = some (.badArg, [64]) := by decide
theorem test_protect : answers .protect 0x13 [63, 1] State.reset = some (.ok, [63, 1]) := by decide
theorem test_list : answers .list 0x14 [63, 32] State.reset = some (.ok, [1, 0, 0] ++ List.replicate 16 0) := by decide
theorem test_load : answers .load 0x20 [0, 0] (stocked (small .empty)) = some (.ok, [0, 1]) := by decide +kernel
theorem test_unload : answers .unload 0x21 [0] (small .running) = some (.busy, [0, 3]) := by decide +kernel
theorem test_start : answers .start 0x22 [0] (small .ready) = some (.ok, [0, 3]) := by decide +kernel
theorem test_start_no_room :
    answers .start 0x22 [0] { small .ready with run := some { idleRun with nearFree := [] } } = some (.noRoom, [0, 1]) := by
  decide +kernel
theorem test_stop_spill : answers .stopSpill 0x23 [0, 0] (small .running) = some (.ok, [0, 5]) := by decide +kernel
theorem test_stop_cut : answers .stopCut 0x23 [0, 1] (small .held) = some (.ok, [0, 6]) := by decide +kernel
theorem test_hold : answers .hold 0x24 [0] (small .spilling) = some (.badState, [0, 5]) := by decide +kernel
theorem test_unhold : answers .unhold 0x25 [0] (small .held) = some (.ok, [0, 3]) := by decide +kernel
/-- R205: the block of an enabled LINK group at priority 1 with an OVERRUN of TAG 0x33 and a deselection. -/
theorem test_notice_block :
    answers .noticeRead 0x60 [] { State.reset with notices := { Notices.reset with overrun := some 0x33, badFrame := some .deselect } } =
      some (.ok, [1, 5, 1, 1, 3, 0x33, 2]) := by decide
/-- R88: a glide of 70,000 is clamped to 65,535. -/
theorem test_set_clamps :
    answers .set 0x26 ([0, 2, 0] ++ u4 70000) (small .ready) = some (.clamped, [0, 1] ++ u4 65535) := by decide +kernel
theorem test_get_route : answers .get 0x27 [0, 16, 0] (small .ready) = some (.ok, [0, 1] ++ u4 255) := by decide +kernel
theorem test_cue_add : answers .cueAdd 0x30 [2, 5, 0, 0, 0, 0, 0, 0, 0] (small .empty) = some (.ok, [0, 1]) := by decide +kernel
theorem test_go_empty : answers .go 0x33 [] (small .empty) = some (.empty, []) := by decide +kernel
theorem test_tempo_set : answers .tempoSet 0x40 [0x0B, 0xB7] State.reset = some (.clamped, [0x0B, 0xB8]) := by decide
theorem test_tap_mode : answers .tapMode 0x42 [2] State.reset = some (.badArg, []) := by decide

/-- The part with a tap sequence behind it. -/
def tapped (l : List Nat) (age : Nat) : State :=
  { small .empty with tempo := { Tempo.reset with intervals := l, lastTap := some age } }

/-- 03, the tap sequence: the edge at 72,900, and the one at 81,100 instead. -/
theorem test_tap_edges :
    after (fun t => (t.tempo.tempo, t.tempo.intervals)) (exec .tapEdge (tapped [24000, 24100] 23800)) =
      some (12017, [24000, 24100, 23800]) ∧
    after (fun t => (t.tempo.tempo, t.tempo.intervals)) (exec .tapEdge (tapped [24000, 24100] 32000)) =
      some (9000, [32000]) := by decide +kernel

theorem test_mem_errors : answers .memErrors 0x50 [2] (small .empty) = some (.badArg, []) := by decide +kernel
theorem test_line_read_state :
    answers .lineRead 0x51 ([0, 0] ++ u4 1 ++ u2 1) (small .running) = some (.badState, []) := by decide +kernel
theorem test_line_write_beyond :
    answers .lineWrite 0x52 ([0, 0] ++ u4 1 ++ u2 1 ++ s3 (-1)) (small .held) = some (.badArg, []) := by decide +kernel
theorem test_notice_read : answers .noticeRead 0x60 [] State.reset = some (.ok, [0]) := by decide
theorem test_notice_config : answers .noticeConfig 0x62 [2, 0, 3] State.reset = some (.ok, [2, 0, 3]) := by decide
theorem test_notice_clear : answers .noticeClear 0x61 ([1, 3, 2] ++ List.replicate 18 0) State.reset = some (.badArg, []) := by
  decide

/-- No bits inverted, the order of the instance numbers and no assertion of RESET. -/
def quiet : FrameEnv := ⟨[], [], none⟩

/-- Silent input lanes. -/
def noInput : InputLanes := ⟨0, 0⟩

/-- R169: the first 24 bits of AIN1 are IN16, and its last slot is IN31; the low 8 bits of a slot are discarded. -/
theorem test_input_lanes :
    ((laneSamples ⟨0, 0x8000FF#512 <<< 480 ||| 0x00000180#512⟩)[16] = 32768) ∧
      ((laneSamples ⟨0, 0x8000FF#512 <<< 480 ||| 0x00000180#512⟩)[31] = 1) ∧
      (laneSamples ⟨0xFFFFFF00#512 <<< 448, 0⟩)[1] = -1 := by decide +kernel

/-- 09, the shortest path: 999,907 is sent in the top 24 bits of slot 7 of AOUT0. -/
theorem test_output_lane :
    (let s := { State.reset with ports := { Ports.reset with transmit := (Vector.replicate 32 0).set 7 999907 } }
     (laneSlot s.aout0 7 = BitVec.ofNat 32 (999907 * 256)) ∧ laneSlot s.aout0 6 = 0 ∧ s.aout1 = 0) := by decide +kernel

/-- R180: at 96,000 Hz the watch runs 262 ticks, so one 400 ticks after the mark at the end of SETUP expires at once: no tick passes. -/
theorem test_setup_overdue_watch :
    (match exec (.setup ⟨400, []⟩) (asked 0x03 (u4 96000 ++ u2 1024 ++ u1 0)
        { State.reset with monitor := ⟨.free, 0, 0, some 0, 0⟩ }) with
     | .next t => after (fun u => (u.monitor.sinceMark, u.monitor.sinceFrame)) (exec (.edgeWatchExpiry quiet) t)
     | _ => none) = some (some 0, 400) := by decide +kernel

/-- R174: the first edge becomes the mark and no frame. -/
theorem test_first_edge :
    after (fun t => (t.monitor.sinceMark, t.monitor.good)) (exec (.afsEdge 512 noInput quiet) State.reset) = some (some 0, 0) := by
  decide

/-- 02, "the first frames after admission": with IN_A at IN0 the first input 10,000 is written at gain 512 as round15(5,120,000) = 156. -/
theorem test_first_frame :
    (let s := { part .running with ports := { Ports.reset with inputs := Vector.replicate 32 10000 } }
     let x := { instIn .running with routing := { Routing.none with inA := some 0 } }
     (instFrame .r48 0 x program running s).state.near) = [(0, 156#24)] := by decide +kernel

/-- R48: a frame cut off before its one line write leaves the line's word, after it the word written; either way the part is in SETUP. -/
theorem test_cut_frame :
    (let s := { part .running with
       instances := State.reset.instances.set 0 { instIn .running with routing := { Routing.none with inA := some 0 } } }
     let cut := fun n => s.frameStart (Vector.replicate 32 10000) ⟨[], [], some n⟩
     (cut 0).near = [] ∧ (cut 1).near = [(0, 156#24)] ∧ (cut 1).run = none ∧ (cut 1).resetPin = true) := by decide +kernel

theorem test_window_end :
    after (fun t => (t.inst 0).lastLevel) (exec (.windowEnd 0) { small .running with
      instances := State.reset.instances.set 0 { instIn .running with
        running := some { running with windowProgress := 256, windowPeak := 700 } } }) = some (some 2) := by decide +kernel

/-! ### The invariants of `part`, for the witnesses -/

theorem inst_part (st : InstState) (i : InstNo) : (part st).inst i = if i = 0 then instIn st else Inst.emptyWith Routing.none := by
  revert i; cases st <;> decide +kernel

theorem library_part (st : InstState) (k : SlotNo) : ((part st).libSlot k).record = none := by
  revert k; cases st <;> decide +kernel

theorem program_wf : program.wf :=
  { name := ⟨rfl, 1, by decide, by decide, by decide, by decide⟩, lineCount := by decide, tapCount := by decide,
    lines := by simp [program, LineProg.wf], 
    taps := by
      intro t ht
      obtain rfl : t = tap := by simpa [program] using ht
      exact ⟨by decide, by decide, by decide, by decide, by decide, by decide, trivial⟩,
    lfo0 := ⟨by decide, by decide, by decide⟩, lfo1 := ⟨by decide, by decide, by decide⟩,
    inGain := by decide, outGain := by decide, glide := by decide, tailFloor := by decide, quiet := by decide,
    spillLimit := by decide }

theorem instIn_program (st : InstState) (p : Program) (h : (instIn st).program = some p) : p = program := by
  cases st <;> simp [instIn] at h <;> exact h.symm

theorem instancesInv_part (st : InstState) : InstancesInv (part st) := by
  have hr : ∀ st, (part st).run ≠ none := by intro st; simp [part]
  refine { queueOnce := ?_, spillOnce := ?_, waiting := ?_, spilling := ?_, holds := ?_, program := ?_, slot := ?_, setup := ?_, cue := ?_ }
  · cases st <;> decide +kernel
  · cases st <;> decide +kernel
  · cases st <;> decide +kernel
  · cases st <;> decide +kernel
  · cases st <;> decide +kernel
  · cases st <;> decide +kernel
  · cases st <;> decide +kernel
  · intro h; exact absurd h (hr st)
  · intro h; exact absurd h (hr st)

theorem programsInv_part (st : InstState) : ProgramsInv (part st) where
  library k r h := by simp [library_part] at h
  instances i p h := by
    rw [inst_part] at h
    split at h
    · rw [instIn_program st p h]; exact program_wf
    · simp [Inst.emptyWith] at h

theorem pageList_part (st : InstState) (p : Pool) (i : InstNo) (j : Nat) :
    ((part st).inst i).pageList p j = if st.holdsPages = true ∧ p = .near ∧ i = 0 ∧ j = 0 then [0] else [] := by
  rw [inst_part]
  by_cases hi : i = 0
  · subst hi
    cases st <;> simp [instIn, InstState.holdsPages, Inst.emptyWith, Inst.pageList, running] <;>
      (cases j with
       | zero => cases p <;> simp
       | succ j => cases p <;> simp)
  · simp [hi, Inst.emptyWith, Inst.pageList]

theorem pagesIn_part (st : InstState) (p : Pool) :
    (allInsts.map fun i => ((part st).inst i).pagesIn p).sum = if st.holdsPages = true ∧ p = .near then 1 else 0 := by
  cases p <;> cases st <;> decide +kernel

theorem poolWf_part (st : InstState) (r : Run) (p : Pool) (hr : (part st).run = some r) : PoolWf (part st) r p := by
  have hpl := pageList_part st p
  have hin := pagesIn_part st p
  cases hst : st.holdsPages
  · obtain rfl : r = idleRun := by simpa [part, hst, eq_comm] using hr
    simp only [hst] at hpl hin
    cases p
    · refine ⟨by decide, by decide, ?_, ?_, ?_, ?_⟩
      · intro q; simp [Run.free, Run.owners, idleRun, Run.build, List.getElem?_replicate, -List.reduceReplicate]
      · intro q i j; simp [hpl, Run.owners, idleRun, Run.build, List.getElem?_replicate, -List.reduceReplicate]
      · intro i j; simp [hpl]
      · rw [hin]; rfl
    · refine ⟨by simp [Run.free, idleRun, Run.build, List.nodup_range], by simp [Run.owners, idleRun, Run.build, Run.poolPages], ?_, ?_, ?_, ?_⟩
      · intro q; simp [Run.free, Run.owners, idleRun, Run.build, List.getElem?_replicate, -List.reduceReplicate]
      · intro q i j; simp [hpl, Run.owners, idleRun, Run.build, List.getElem?_replicate, -List.reduceReplicate]
      · intro i j; simp [hpl]
      · have h : (idleRun.free .far).length = 1024 := by decide +kernel
        rw [hin, h]; rfl
  · obtain rfl : r = busyRun := by simpa [part, hst, eq_comm] using hr
    simp only [hst] at hpl hin
    cases p
    · refine ⟨by decide, by decide, ?_, ?_, ?_, ?_⟩
      · intro q; cases q <;> simp [Run.free, Run.owners, busyRun, idleRun, Run.build, List.getElem?_replicate, -List.reduceReplicate]
      · intro q i j
        rw [hpl]
        cases q with
        | zero => simp [Run.owners, busyRun]; constructor <;> rintro ⟨h1, h2⟩ <;> exact ⟨h1.symm, h2.symm⟩
        | succ q => simp [Run.owners, busyRun, List.getElem?_replicate, -List.reduceReplicate]
      · intro i j; rw [hpl]; split <;> simp
      · rw [hin]; decide
    · refine ⟨by simp [Run.free, busyRun, idleRun, Run.build, List.nodup_range], by simp [Run.owners, busyRun, idleRun, Run.build, Run.poolPages], ?_, ?_, ?_, ?_⟩
      · intro q; simp [Run.free, Run.owners, busyRun, idleRun, Run.build, List.getElem?_replicate, -List.reduceReplicate]
      · intro q i j; simp [hpl, Run.owners, busyRun, idleRun, Run.build, List.getElem?_replicate, -List.reduceReplicate]
      · intro i j; simp [hpl]
      · have h : (busyRun.free .far).length = 1024 := by decide +kernel
        rw [hin, h]; rfl

theorem poolInv_part (st : InstState) : PoolInv (part st) where
  instances := instancesInv_part st
  programs := programsInv_part st
  pools r p hr := poolWf_part st r p hr
  lengths i := by
    intro p r hp hr
    rw [inst_part] at hp hr
    split at hp
    · rename_i h; simp [h] at hr
      obtain rfl := instIn_program st p hp
      cases st <;> simp [instIn, InstState.holdsPages] at hr <;> subst hr <;> rfl
    · simp [Inst.emptyWith] at hp
  corrections r _ e he := by simp [part, State.reset] at he
  setup h := by simp [part] at h

theorem runningInv_part (st : InstState) : RunningInv (part st) where
  programs := programsInv_part st
  tempo := ⟨by show 3000 ≤ 12000; decide, by show 12000 ≤ 30000; decide⟩
  running i r h := by
    rw [inst_part] at h
    split at h
    · have : r = running := by cases st <;> simp [instIn, InstState.holdsPages] at h <;> exact h.symm
      subst this
      refine ⟨?_, ?_, by decide, by decide, by decide, by decide, by decide⟩
      · intro l hl
        obtain rfl : l = ⟨0, 0, .near, [0]⟩ := by simpa [running] using hl
        exact ⟨by decide, by decide⟩
      · intro t ht
        obtain rfl : t = ⟨640, 640, 32767, 0, 0⟩ := by simpa [running] using ht
        exact ⟨by decide, by decide, by decide, ⟨by decide, by decide⟩, ⟨by decide, by decide⟩⟩
    · simp [Inst.emptyWith] at h

/-! ### Witnesses: states and operands that meet the hypotheses of the statements, clause by clause

Each witness is named after its statement. `Takes s` gives the hypothesis on taking a request for every request; the other
hypotheses read fields of `s` that `asked` leaves as they are. -/

/-- Every request put into the inbox of this state can be taken. -/
def Takes (s : State) : Prop :=
  ∀ k b, CanTake (asked k b s) (frame k b) []

theorem takes {s : State} (h1 : s.resetPin = false) (h2 : s.link.sendOrder.length + s.link.reserved < 4) : Takes s :=
  fun k b => canTake k b h1 h2

theorem takes_reset : Takes State.reset := takes rfl (by decide)
theorem takes_small (st : InstState) : Takes (small st) := takes rfl (by cases st <;> decide)

/-- A state with a command waiting. -/
def queued (c : Instr) (s : State) : State :=
  { s with pending := [c] }

/-- A state whose receiver, inbox and send order are given. -/
def linked (rc : Receiver) (ib : List Frame) (so : List Reply) : State :=
  { State.reset with link := { Link.reset with receiver := rc, inbox := ib, sendOrder := so } }

/-- A state with a frame clock monitor. -/
def clocked (m : Monitor) : State :=
  { State.reset with monitor := m }

/-- A state with instance 0 as given. -/
def withInst (x : Inst) (s : State) : State :=
  { s with instances := s.instances.set 0 x }

/-- The largest program: eight FAR lines of 128 pages and 32 taps. -/
def largest : Program :=
  { program with lines := List.replicate 8 ⟨.far, 128, .a⟩, taps := List.replicate 32 tap }

theorem witness_StepRunsFrontCommand :
    (queued .powerUp State.reset).pending = .powerUp :: [] ∧ State.reset.pending = [] := ⟨rfl, rfl⟩

theorem witness_PowerUpAndResetPin :
    ({ State.reset with resetPin := true } : State).resetPin = true ∧ State.reset.resetPin = false := ⟨rfl, rfl⟩

theorem witness_NothingEntersWhileResetAsserted :
    ({ State.reset with resetPin := true } : State).resetPin = true ∧ (requestKind .go).isSome = true ∧
      (∃ b, Instr.byteKept b = .byteKept 7) ∧ ∃ d x e, Instr.afsEdge d x e = .afsEdge 512 noInput quiet :=
  ⟨rfl, rfl, ⟨7, rfl⟩, 512, noInput, quiet, rfl⟩

/-- The inbox with one frame and with two; the last port of AOUT0 and the first of AOUT1; the last bit of a slot. -/
theorem witness_PinsFollowTheState :
    (linked .hunting [frame 1 []] []).resetPin = false ∧ (linked .hunting [frame 1 []] []).link.inbox.length < 2 ∧
      ¬ (linked .hunting [frame 1 [], frame 1 []] []).link.inbox.length < 2 ∧
      ({ State.reset with resetPin := true } : State).resetPin = true ∧ State.reset.link.polarity = .activeLow ∧
      (State.replied (frame 1 []) [] .ok [] State.reset).link.sendOrder ≠ [] ∧ State.reset.link.sendOrder = [] ∧
      ((15 : PortNo).val < 16 ∧ ¬ (16 : PortNo).val < 16 ∧ 31 < 32) := by
  decide

/-- LEN 1, 2, 1024 and 1025; the inbox with one frame and with two; the last byte of a body and the last but one. -/
theorem witness_ReceiverTakesEachByte :
    (linked .hunting [] []).resetPin = false ∧ (linked .hunting [] []).link.receiver = .hunting ∧
      ((0x13 : Byte) ≠ 0x00 ∧ (0x13 : Byte) ≠ 0xA9) ∧
      (linked (.length none) [] []).link.receiver = .length none ∧
      (linked (.length (some 0)) [] []).link.receiver = .length (some 0) ∧
      (2 ≤ (0 : Byte).toNat * 256 + (2 : Byte).toNat ∧ (0 : Byte).toNat * 256 + (1 : Byte).toNat < 2) ∧
      ((4 : Byte).toNat * 256 + (0 : Byte).toNat ≤ 1024 ∧ 1024 < (4 : Byte).toNat * 256 + (1 : Byte).toNat) ∧
      ((linked (.body 2 []) [] []).link.receiver = .body 2 [] ∧ 2 ≤ 2) ∧
      ((linked (.body 1 [0x77]) [frame 1 []] []).link.receiver = .body 1 [0x77] ∧ [0x77] ++ [0x01] = (0x77 : Byte) :: 0x01 :: [] ∧
        (linked (.body 1 [0x77]) [frame 1 []] []).link.inbox.length < 2 ∧
        2 ≤ (linked (.body 1 [0x77]) [frame 1 [], frame 1 []] []).link.inbox.length) ∧
      (linked (.length none) [] []).link.receiver ≠ .hunting := by decide

/-- A reply of six bytes with none sent, with four sent, and with five sent. -/
theorem witness_RepliesAreSentByteByByte :
    let r : Reply := ⟨0x5A, 0x81, .ok, []⟩
    (linked .hunting [] [r]).resetPin = false ∧ (linked .hunting [] [r]).link.sendOrder = [r] ∧
      0 + 1 < r.bytes.length ∧ 4 + 1 < r.bytes.length ∧ 5 + 1 = r.bytes.length := by decide

/-- Lengths beyond both ends of a range, each part state, the three ways a row finds nothing of its own, and a STOP of each mode. -/
theorem witness_RequestHandlerChecks :
    Takes State.reset ∧ Takes (small .running) ∧ Kind.ofByte 0x7F = none ∧
      (requestKind .identify = some .identify ∧ Kind.ofByte 0x01 = some .identify ∧ Kind.identify.lengthOk [0] = false) ∧
      (Kind.store.lengthOk (List.replicate 32 0) = false ∧ Kind.store.lengthOk (List.replicate 33 0) = true ∧
        Kind.store.lengthOk (List.replicate 465 0) = true ∧ Kind.store.lengthOk (List.replicate 466 0) = false) ∧
      (State.reset.run = none ∧ Kind.start.servedInSetup = false ∧ Kind.start.lengthOk [0] = true) ∧
      Kind.softReset.lengthOk [] = true ∧ ((small .running).run.isSome = true ∧ Kind.setup.lengthOk (List.replicate 7 0) = true) ∧
      (Kind.stop.lengthOk [0, 0] = true ∧ u1At [0, 0] 1 ≠ 1 ∧ u1At [0, 1] 1 ≠ 0) ∧
      (State.reset.link.inbox = [] ∧ 4 ≤ (linked .hunting [] (List.replicate 4 ⟨0, 0x81, .ok, []⟩)).link.sendOrder.length + 0 ∧
        Kind.ofByte 0x02 ≠ some .identify) ∧
      (∀ m ∈ [(0 : Byte), 1], (asked 0x23 [23, m] (small .running)).link.inbox = [frame 0x23 [23, m]] ∧
        Kind.ofByte (frame 0x23 [23, m]).kind = some .stop) :=
  ⟨takes_reset, takes_small .running, by decide +kernel⟩

theorem witness_IdentifyNamesThePart : Takes State.reset ∧ (frame 0x01 []).kind = 0x01 ∧ (frame 0x01 []).body = [] :=
  ⟨takes_reset, rfl, rfl⟩

/-- SETUP and RUN; an instance with a program and running fields, one with a program alone, and an EMPTY one. -/
theorem witness_StatusRepliesReadTheState :
    Takes State.reset ∧ Takes (small .held) ∧ (small .held).run.isSome = true ∧ State.reset.run = none ∧
      (frame 0x28 [instByte 23]).body = [instByte 23] ∧ ((small .held).inst 0).program = some program ∧ program.name.length = 16 ∧
      ((small .held).inst 0).running = some running ∧ ((small .ready).inst 0).program = some program ∧
      ((small .ready).inst 0).running = none ∧ (small .held).inst 23 = Inst.emptyWith Routing.none ∧
      ((small .held).inst 23).program = none ∧ ((small .held).inst 23).running = none :=
  ⟨takes_reset, takes_small .held, by decide +kernel⟩

/-- Each field out of its domain, the record of the smallest setup, and the two outcomes of the sizing check. -/
theorem witness_SetupBuildsThePools :
    let body := u4 48000 ++ u2 1024 ++ u1 0
    let m := (State.reset.writeDram 0 0x5A5A5A).writeDram (1023 * 2048) (0xA5A5A5 - 0x1000000)
    Takes State.reset ∧ State.reset.run = none ∧ body.length = 7 ∧
      (uAt 4 (u4 48001 ++ u2 1024 ++ u1 0) 0 ≠ 48000 ∧ uAt 4 (u4 48001 ++ u2 1024 ++ u1 0) 0 ≠ 96000) ∧
      1 < u1At (u4 48000 ++ u2 1024 ++ u1 2) 6 ∧
      (uAt 4 body 0 = SampleRate.r48.hz ∧ uAt 2 body 4 = FarSize.p1024.pages ∧ u1At body 6 = Polarity.activeLow.code) ∧
      ((m.upsets []).dramWord 0 = validWord 0x5A5A5A ∧
        (m.upsets []).dramWord (1023 * 2048) = validWord (0xA5A5A5 - 0x1000000)) ∧
      (m.upsets [⟨0, 1, 0⟩]).dramWord 0 ≠ validWord 0x5A5A5A :=
  ⟨takes_reset, by decide +kernel⟩

theorem witness_SoftResetEmptiesTheEngine : Takes (small .spilling) ∧ (small .spilling).run.isSome = true :=
  ⟨takes_small _, rfl⟩

/-- A record in slot 0, instance 0 READY, and a cue fired by the GO pin that loads it from there. -/
def loading (due : Bool) : State :=
  stocked { small .ready with cue := ⟨[], [⟨.load, 0, 0, 0, 0, 0⟩], true, some .pin, due⟩ }

theorem linkInv_loading (k : Byte) (b : List Byte) : LinkInv (asked k b (loading true)) :=
  ⟨Nat.le_succ 1, Nat.zero_le 4, rfl, rfl, rfl, trivial⟩

/-- R146: an ERASE of the slot is not seen by the entry after the boundary, and is before it; one of another slot leaves the entry due. -/
theorem test_erase_after_boundary :
    (let g : State → Nat × Bool × Bool := fun t =>
       (t.cue.fired.length, (t.libSlot 0).record.isSome, decide (t.notices.applied = some ⟨1, 0, none⟩))
     after g (exec .erase (asked 0x12 [0] (loading true))) = some (0, false, true) ∧
       after g (exec .erase (asked 0x12 [0] (loading false))) = some (1, false, false) ∧
       after g (exec .erase (asked 0x12 [1] (loading true))) = some (1, true, false)) := by decide +kernel

/-- Slot 63 and slot 64, the shortest and the longest record, a record with a fault in its header, in its length and in its last entry,
a protected slot, and a slot that a due LOAD entry names. -/
theorem witness_StoreChecksThenWrites :
    Takes State.reset ∧ Takes (State.reset.setLibSlot 63 ⟨none, true⟩) ∧ (slotByte 63).toNat < 64 ∧ 64 ≤ (64 : Byte).toNat ∧
      (32 ≤ program.record.length ∧ largest.record.length = 464 ∧ recordFault largest.record = none) ∧
      ((List.replicate 32 (0 : Byte)).length = 32 ∧ recordFault (List.replicate 32 0) = some 0 ∧
        recordFault program.record.dropLast = some 28 ∧ recordFault (program.record.set 58 2) = some 26) ∧
      ((State.reset.libSlot 63).guarded = false ∧ ((State.reset.setLibSlot 63 ⟨none, true⟩).libSlot 63).guarded = true) ∧
      Takes (loading true) ∧ (∀ k b, LinkInv (asked k b (loading true))) ∧ (loading true).cue.due = true ∧
      (∃ e ∈ (loading true).cue.fired, e.action = .load ∧ e.slot = slotByte 0) ∧
      ((loading true).libSlot 0).guarded = false ∧ ((loading true).libSlot 0).record ≠ some ⟨largest.record, largest⟩ :=
  ⟨takes_reset, takes rfl (by decide), by decide, by decide, by decide +kernel, by decide +kernel, by decide +kernel,
   takes rfl (by decide), linkInv_loading, rfl, by decide, rfl, by decide +kernel⟩

theorem witness_PassingRecordIsWithinLimits :
    (32 ≤ program.record.length ∧ program.record.length ≤ 464 ∧ recordFault program.record = none) ∧
      largest.record.length = 464 ∧ recordFault largest.record = none := by decide +kernel

theorem witness_RecordOfProgramReadsBack : program.wf ∧ largest.wf :=
  ⟨program_wf,
   { program_wf with
     lineCount := by decide, tapCount := by decide,
     lines := by
       intro l hl
       obtain rfl := List.eq_of_mem_replicate hl
       exact ⟨by decide, by decide⟩,
     taps := by
       intro t ht
       obtain rfl := List.eq_of_mem_replicate ht
       exact ⟨by decide, by decide, by decide, by decide, by decide, by decide, trivial⟩ }⟩

/-- Both answers of a FETCH, and a STORE that is accepted with the FETCH of its slot behind it. -/
theorem witness_FetchReturnsTheStoredRecord :
    let s := linked .hunting [frame 0x10 (slotByte 63 :: largest.record), frame 0x11 [slotByte 63]] []
    Takes (stocked State.reset) ∧ ((stocked State.reset).libSlot 0).record = some ⟨program.record, program⟩ ∧
      (State.reset.libSlot 0).record = none ∧
      CanTake s (frame 0x10 (slotByte 63 :: largest.record)) [frame 0x11 [slotByte 63]] ∧
      (largest.record.length = 464 ∧ recordFault largest.record = none ∧ (s.libSlot 63).guarded = false) ∧
      after (fun t => decide (t.link.sendOrder.length + t.link.reserved < 4)) (exec .store s) = some true :=
  ⟨takes rfl (by decide), by decide +kernel, by decide, ⟨rfl, rfl, by decide⟩, by decide +kernel, by decide +kernel⟩

/-- Slots 63 and 64; a protected slot, an unprotected one and one that a due LOAD entry names; flags 0, 1 and 2; counts 0, 1, 32 and 33. -/
theorem witness_EraseProtectAndList :
    Takes State.reset ∧ Takes (State.reset.setLibSlot 63 ⟨none, true⟩) ∧ 64 ≤ (64 : Byte).toNat ∧ (slotByte 63).toNat = 63 ∧
      (State.reset.libSlot 63).guarded = false ∧ ((State.reset.setLibSlot 63 ⟨none, true⟩).libSlot 63).guarded = true ∧
      2 ≤ (2 : Byte).toNat ∧ (1 ≤ (1 : Byte).toNat ∧ (32 : Byte).toNat ≤ 32 ∧ 32 < (33 : Byte).toNat) ∧
      Takes (loading true) ∧ (∀ k b, LinkInv (asked k b (loading true))) ∧ (loading true).cue.due = true ∧
      (∃ e ∈ (loading true).cue.fired, e.action = .load ∧ e.slot = slotByte 0) ∧
      ((loading true).libSlot 0).guarded = false ∧ ((loading true).libSlot 0).record ≠ none :=
  ⟨takes_reset, takes rfl (by decide), by decide, by decide, by decide, by decide, by decide, by decide,
   takes rfl (by decide), linkInv_loading, rfl, by decide, rfl, by decide⟩

/-- Instance 24, slot 64, mode 2, identifier 20, tap 32, LFO 2, and the first value beyond each enumerated range. -/
theorem witness_InstanceRequestsRefuseBadFields :
    Takes (small .ready) ∧ (small .ready).run.isSome = true ∧
      (requestKind .unload = some .unload ∧ Kind.ofByte 0x21 = some .unload ∧ Kind.unload.lengthOk [24] = true ∧
        byteAt [24] 0 = 24 ∧ 24 ≤ (24 : Byte).toNat) ∧
      64 ≤ (64 : Byte).toNat ∧ 2 ≤ (2 : Byte).toNat ∧ (u4 7).length = 4 ∧ 20 ≤ (20 : Byte).toNat ∧
      (3 ≤ (3 : Byte).toNat ∧ (9 : Byte).toNat ≤ 9 ∧ 32 ≤ (32 : Byte).toNat) ∧
      (10 ≤ (10 : Byte).toNat ∧ (12 : Byte).toNat ≤ 12 ∧ 2 ≤ (2 : Byte).toNat) ∧
      1 < beVal (u4 2) ∧ 2 < beVal (u4 3) ∧ (31 < beVal (u4 32) ∧ beVal (u4 32) ≠ 255 ∧ beVal (u4 254) ≠ 255) :=
  ⟨takes_small _, rfl, by decide +kernel⟩

theorem witness_LoadAndUnload :
    Takes (stocked (small .empty)) ∧ ((stocked (small .empty)).inst 0).state = .empty ∧
      ((stocked (small .empty)).libSlot 0).record = some ⟨program.record, program⟩ ∧ ((small .ready).libSlot 0).record = none ∧
      (Takes (small .ready) ∧ ((small .ready).inst 0).state = .ready) ∧ Takes (small .waiting) ∧
      ((small .waiting).inst 0).state = .waiting :=
  ⟨takes rfl (by decide), by decide +kernel, by decide +kernel, by decide +kernel, ⟨takes_small _, by decide +kernel⟩,
   takes_small _, by decide +kernel⟩

/-- Every state; and for a READY instance a fit, no fit even with what may come back, a queue, and pages that may come back. -/
theorem witness_StartInEveryState :
    let none' := { small .ready with run := some { idleRun with nearFree := [] } }
    let tail' := { none' with instances := none'.instances.set 1 (instIn .spilling), spill := [1] }
    (∀ st, Takes (small st) ∧ ((small st).inst 0).state = st) ∧ (small .ready).run.isSome = true ∧
      ((small .ready).inst 0).program = some program ∧
      ((small .ready).queue = [] ∧ fits program (small .ready).freeCounts = true) ∧
      (Takes none' ∧ none'.queue = [] ∧ fits program none'.freeCounts = false ∧ fits program none'.prospectiveCounts = false) ∧
      ({ small .ready with queue := [5] } : State).queue ≠ [] ∧
      (Takes tail' ∧ fits program tail'.freeCounts = false ∧ fits program tail'.prospectiveCounts = true) :=
  ⟨fun st => ⟨takes_small st, by cases st <;> decide +kernel⟩, rfl, by decide +kernel, by decide +kernel,
   ⟨takes rfl (by decide), by decide +kernel⟩, by decide, takes rfl (by decide), by decide +kernel⟩

/-- Every state; WAITING at the head of the queue and behind it. -/
theorem witness_StopMovesTheInstance :
    (∀ st, Takes (small st) ∧ ((small st).inst 0).state = st) ∧ (small .waiting).queue.head? = some 0 ∧
      ({ small .waiting with queue := [5, 0] } : State).queue.head? ≠ some 0 :=
  ⟨fun st => ⟨takes_small st, by cases st <;> decide +kernel⟩, by decide, by decide⟩

/-- A line access of instance 0, line 0. -/
def access (op : AccessOp) : LineAccess :=
  { tag := 9, op := op, inst := 0, line := 0, pool := .near, positions := [2047, 2046], served := 0, got := [], bad := 0,
    frameSeen := true }

theorem witness_HoldUnholdAndTheAccess :
    (∀ st, Takes (small st) ∧ ((small st).inst 0).state = st) ∧ (small .held).access = none ∧
      ({ small .held with access := some (access .read) } : State).access = some (access .read) ∧ (access .read).inst = 0 ∧
      (access .read).inst ≠ 1 ∧ (access .read).op = .read ∧ (access (.write [1, 2])).op = .write [1, 2] :=
  ⟨fun st => ⟨takes_small st, by cases st <;> decide +kernel⟩, by decide⟩

/-- Codes 3, 9, 10, 12 and 19; indices 0, 1 and 31; values at both ends of 32 bits and of each code list; tap 0 of one tap and tap 1 beyond
it; EMPTY and READY; a value that GET returns. -/
theorem witness_SetAndGet :
    (∀ st, Takes (small st) ∧ ((small st).inst 0).state = st) ∧ (small .ready).run.isSome = true ∧
      ((19 : Byte).toNat < 20 ∧ (3 ≤ (3 : Byte).toNat ∧ (9 : Byte).toNat ≤ 9 ∧ (31 : Byte).toNat < 32) ∧
        (10 ≤ (10 : Byte).toNat ∧ (12 : Byte).toNat ≤ 12 ∧ (1 : Byte).toNat < 2)) ∧
      ((-2147483648 : Int) ≤ -2147483648 ∧ (2147483647 : Int) ≤ 2147483647 ∧
        ((1 : Int) = 0 ∨ (1 : Int) = 1) ∧ ((0 : Int) ≤ 31 ∧ (31 : Int) ≤ 31 ∨ (31 : Int) = 255)) ∧
      (((small .ready).inst 0).program = some program ∧ program.taps.length ≤ (1 : Byte).toNat ∧
        (0 : Byte).toNat < program.taps.length ∧ program.taps[(0 : Byte).toNat]?.map TapProg.gain = some 32767) :=
  ⟨fun st => ⟨takes_small st, by cases st <;> decide +kernel⟩, rfl, by decide, by decide, by decide +kernel, by decide,
   by decide, rfl⟩

theorem witness_StoredValueReadsBack :
    (instIn .running).program = some program ∧
      (0 < program.taps.length ∧ Ident.tapGain.range.1 ≤ -32768 ∧ -32768 ≤ Ident.tapGain.range.2 ∧
        Ident.tapGain.valueOk (-32768) = true) ∧
      (Ident.lfoRate.ofLfo = true ∧ 1 < 2 ∧ Ident.lfoRate.range.1 ≤ 20000 ∧ 20000 ≤ Ident.lfoRate.range.2 ∧
        Ident.lfoRate.valueOk 20000 = true) ∧
      (Ident.routeInA ≠ .tapGain ∧ Ident.routeInA.range.1 ≤ 255 ∧ 255 ≤ Ident.routeInA.range.2 ∧ Ident.routeInA.valueOk 255 = true) :=
  by decide

theorem witness_FitTestWalksTheLines : program.lines[0]? = some ⟨.near, 1, .a⟩ := rfl

theorem witness_AdmissionGrantsAndStarts :
    PoolInv (part .ready) ∧ (part .ready).run = some idleRun ∧ ((part .ready).inst 0).program = some program ∧
      ((part .ready).inst 0).running = none ∧ fits program (part .ready).freeCounts = true :=
  ⟨poolInv_part _, rfl, by decide +kernel, by decide +kernel, by decide +kernel⟩

/-- No NEAR page free, instance 0 WAITING and instance 1 in a state with the page. -/
def crowded (st : InstState) : State :=
  { State.reset with
    run := some { idleRun with nearFree := [] }, queue := [0], spill := if st = .spilling then [1] else [],
    instances := (State.reset.instances.set 0 (instIn .waiting)).set 1 (instIn st) }

/-- No head; a head that fits; one that waits for a tail being cut, one for a tail to be stolen, and one that fits nothing. -/
theorem witness_HeadServiceServesTheQueue :
    InstancesInv (part .ready) ∧ (part .ready).queue = [] ∧
      (InstancesInv (part .waiting) ∧ (part .waiting).queue = [0] ∧ (part .waiting).instFits 0 (part .waiting).freeCounts = true) ∧
      (∀ st ∈ [InstState.cutting, .spilling, .running], InstancesInv (crowded st) ∧ (crowded st).queue = [0] ∧
        (crowded st).instFits 0 (crowded st).freeCounts = false) ∧
      ((crowded .cutting).spill.length = 0 ∧ (crowded .cutting).instFits 0 (crowded .cutting).enlargedCounts = true) ∧
      ((crowded .spilling).spill.length = 1 ∧ (crowded .spilling).instFits 0 (crowded .spilling).enlargedCounts = false ∧
        (crowded .spilling).headService.notices.stolen = 2#24) ∧
      ((crowded .running).spill.length = 0 ∧ (crowded .running).instFits 0 (crowded .running).enlargedCounts = false) := by
  refine ⟨instancesInv_part _, rfl, ⟨instancesInv_part _, rfl, by decide +kernel⟩, ?_, by decide +kernel, by decide +kernel,
    by decide +kernel⟩
  intro st hst
  simp only [List.mem_cons, List.not_mem_nil, or_false] at hst
  rcases hst with rfl | rfl | rfl <;>
    refine ⟨{ queueOnce := ?_, spillOnce := ?_, waiting := ?_, spilling := ?_, holds := ?_, program := ?_, slot := ?_,
              setup := (by intro h; nomatch h), cue := (by intro h; nomatch h) }, rfl, ?_⟩ <;> decide +kernel

/-- Instance 0 with a report or a decision standing. -/
def reported (st : InstState) (d : Option Decision) (b : Bool) : State :=
  withInst { instIn st with decision := d, releaseDue := b } (part st)

theorem inst_reported (st : InstState) (d : Option Decision) (b : Bool) (i : InstNo) :
    (reported st d b).inst i = if i = 0 then { instIn st with decision := d, releaseDue := b } else (part st).inst i := by
  exact State.setInst_inst 0 i { instIn st with decision := d, releaseDue := b } (part st)

theorem poolInv_reported (st : InstState) (d : Option Decision) (b : Bool) : PoolInv (reported st d b) := by
  refine (poolInv_part st).congr ⟨rfl, rfl, rfl, rfl, rfl, fun i => ?_⟩ rfl rfl rfl
  rw [inst_reported, inst_part]
  split <;> simp

theorem witness_ReleaseAndTailDecision :
    (∀ st d b, PoolInv (reported st d b)) ∧ (reported .cutting none true).run = some busyRun ∧
      ((reported .cutting none true).inst 0).running = some running ∧
      ((reported .cutting none true).inst 0).releaseDue = true ∧ ((reported .cutting none true).inst 0).state = .cutting ∧
      ((reported .spilling none false).inst 0).decision = none ∧ ((reported .running (some .limit) true).inst 0).state = .running ∧
      ((reported .spilling (some .release) false).inst 0).decision = some .release ∧
      ((reported .spilling (some .limit) false).inst 0).decision = some .limit ∧
      ((reported .spilling (some .limit) false).inst 0).state = .spilling :=
  ⟨poolInv_reported, by decide +kernel⟩

/-- A cue entry that sets the glide of instance 0. -/
def cueSet : CueEntry := ⟨.set, 0, 0, 2, 0, 70000⟩

/-- A state with cue entries in the list and in the fired set. -/
def cued (l fired : List CueEntry) (o : Option GoOrigin) (due : Bool) : State :=
  { small .ready with cue := ⟨l, fired, o.isSome, o, due⟩ }

/-- Codes 1, 7 and 8, instance 23 and 24, slot 63 and 64, each field of a SET at and beyond its limit, 31 entries and 32. -/
theorem witness_CueAddChecksAndAppends :
    Takes State.reset ∧ State.reset.run = none ∧ Takes (small .ready) ∧ (small .ready).run.isSome = true ∧
      Takes (cued (List.replicate 31 cueSet) [] none false) ∧ Takes (cued (List.replicate 32 cueSet) [] none false) ∧
      ((u4 31).length = 4 ∧ (7 : Byte).toNat ≤ 7 ∧ ¬ (8 : Byte).toNat ≤ 7 ∧ (23 : Byte).toNat < 24 ∧ ¬ (24 : Byte).toNat < 24 ∧
        (63 : Byte).toNat < 64 ∧ ¬ (64 : Byte).toNat < 64 ∧ (19 : Byte).toNat < 20 ∧ ¬ (20 : Byte).toNat < 20 ∧
        (beVal (u4 31) ≤ 31 ∧ ¬ (beVal (u4 32) ≤ 31 ∨ beVal (u4 32) = 255) ∧ beVal (u4 255) = 255)) ∧
      (cued (List.replicate 31 cueSet) [] none false).cue.list.length < 32 ∧
      32 ≤ (cued (List.replicate 32 cueSet) [] none false).cue.list.length :=
  ⟨takes_reset, rfl, takes_small _, rfl, takes rfl (by decide), takes rfl (by decide), by decide +kernel, by decide, by decide⟩

theorem witness_CueListClearAndGo :
    Takes State.reset ∧ State.reset.run = none ∧ Takes (cued [cueSet] [] none false) ∧
      ((cued [cueSet] [] none false).run.isSome = true ∧ (cued [cueSet] [] none false).cue.pendingFlag = false ∧
        (cued [cueSet] [] none false).cue.list ≠ [] ∧ (cued [cueSet] [] none false).resetPin = false) ∧
      Takes (cued [] [] none false) ∧ (cued [] [] none false).cue.list = [] ∧
      Takes (cued [] [cueSet] (some .pin) false) ∧ (cued [] [cueSet] (some .pin) false).cue.pendingFlag = true :=
  ⟨takes_reset, rfl, takes rfl (by decide), by decide, takes rfl (by decide), rfl, takes rfl (by decide), rfl⟩

/-- Before and after the boundary, of each origin; an entry that is applied, clamped and skipped. -/
theorem witness_ApplicationAppliesTheFiredSet :
    (cued [] [cueSet] (some (.request 7)) false).cue.due = false ∧ (cued [] [cueSet] (some (.request 7)) true).cue.due = true ∧
      (cued [] [cueSet] (some .pin) true).cue.origin = some .pin ∧
      (applyEntry ⟨.start, 0, 0, 0, 0, 0⟩ (small .ready)).1 = .ok ∧ (applyEntry cueSet (small .ready)).1 = .clamped ∧
      (applyEntry ⟨.hold, 0, 0, 0, 0, 0⟩ (small .ready)).1 = .badState ∧
      (applyEntries 0 [⟨.hold, 0, 0, 0, 0, 0⟩] ⟨0, 0, none⟩ (small .ready)).1.applied = 0 := by decide +kernel

theorem witness_CueEntriesActAsRequests :
    Takes (small .ready) ∧ (small .ready).run.isSome = true ∧
      (∀ a, (⟨a, 23, 63, 2, 0, 70000⟩ : CueEntry).domainOk = true) ∧
      (frame 0x20 [instByte 23, 63]).kind = 0x20 ∧ (frame 0x23 [instByte 23, 1]).body = [instByte 23, 1] ∧
      instByte 23 :: 2 :: 0 :: beBytes 4 (70000 : BitVec 32).toNat = [23, 2, 0, 0, 1, 0x11, 0x70] :=
  ⟨takes_small _, rfl, fun a => by cases a <;> decide, by decide⟩

/-- Tempos at 2999, 3000, 30000 and 30001; the tap mode ON and OFF; modes 0, 1 and 2; four intervals. -/
theorem witness_TempoRequests :
    Takes State.reset ∧ State.reset.tempo.tapMode = true ∧ Takes { State.reset with tempo := { Tempo.reset with tapMode := false } } ∧
      ((0x0B : Byte).toNat * 256 + (0xB7 : Byte).toNat = 2999 ∧ (0x0B : Byte).toNat * 256 + (0xB8 : Byte).toNat = 3000) ∧
      ((0x75 : Byte).toNat * 256 + (0x30 : Byte).toNat = 30000 ∧ (0x75 : Byte).toNat * 256 + (0x31 : Byte).toNat = 30001) ∧
      (tapped [1, 2, 3, 4] 0).tempo.intervals.length ≤ 4 ∧ 2 ≤ (2 : Byte).toNat :=
  ⟨takes_reset, rfl, takes rfl (by decide), by decide⟩

/-- At 48,000 Hz: ages 1919 and 1920, 9599 and 9600, 96000 and 96001; an edge a quarter away from the mean and one beyond; three
intervals and four; the fastest and the slowest list. -/
theorem witness_TapEdgeFindsTheTempo :
    State.reset.run = none ∧ (small .empty).run.isSome = true ∧ (small .empty).resetPin = false ∧
      (small .empty).tempo.tapMode = true ∧ (small .empty).tempo.lastTap = none ∧
      (1919 < 48000 / 25 ∧ 48000 / 25 ≤ 1920) ∧ (9599 < 48000 / 5 ∧ 48000 / 5 ≤ 9600) ∧ (96000 ≤ 2 * 48000 ∧ 2 * 48000 < 96001) ∧
      (tapped [24000] 30000).tempo.lastTap = some 30000 ∧
      ¬ (0 < [24000].length ∧ [24000].sum < (((30000 : Nat) : Int) * [24000].length - [24000].sum).natAbs * 4) ∧
      (0 < [24000].length ∧ [24000].sum < (((30001 : Nat) : Int) * [24000].length - [24000].sum).natAbs * 4) ∧
      [24000, 24000, 24000].length < 4 ∧ [24000, 24000, 24000, 24000].length = 4 ∧
      (∀ n ∈ [9600, 9600, 9600, 96000], SampleRate.r48.hz / 5 ≤ n ∧ n ≤ 2 * SampleRate.r48.hz) := by decide

/-- A pin edge, and a frame start during which RESET is not asserted. -/
theorem witness_OnlyTheseCommandsChangeIt :
    after State.pending (exec .goPin State.reset) = some [] ∧ Instr.goPin ≠ .store ∧ Instr.goPin ≠ .powerUp ∧
      after State.pending (exec (.internalFrameTimer quiet) State.reset) = some [] ∧ quiet.cut = none := by decide +kernel

/-- A word as written; bit 0 and bit 23 of the sample inverted; bit 0 and bit 5 of the code inverted; two bits inverted. -/
theorem witness_CodeCorrectsOneDetectsTwo :
    (⟨5, checkCode 5⟩ : DramWord).code ^^^ checkCode 5 = 0 ∧
      ((⟨0, 1⟩ : DramWord).code ^^^ checkCode 0 = BitVec.ofNat 6 (2 ^ 0) ∧ 0x20 ^^^ checkCode 0 = BitVec.ofNat 6 (2 ^ 5)) ∧
      (∀ j < 6, (0 ^^^ checkCode 1).getLsbD j = [0, 1, 2].contains j) ∧
      (∀ j < 6, (0 ^^^ checkCode 0x800000).getLsbD j = [0, 1, 3, 4, 5].contains j) ∧
      (0 ^^^ checkCode 3 ≠ 0 ∧ (∀ j < 6, 0 ^^^ checkCode 3 ≠ BitVec.ofNat 6 (2 ^ j)) ∧ checkWord ⟨3, 0⟩ = .uncorrectable) := by
  decide +kernel

/-- Line 0 of instance 0 as a FAR line on page 0 with its write position at 10 and its fill count full. -/
def farLine : LineRun := ⟨10, 2048, .far, [0]⟩

/-- The two words one sample behind, as written, with `u` inverted in the first and `v` in the second. -/
def farWords (u v : BitVec 24) : State :=
  ((State.reset.writeDram 9 5).writeDram 8 6).upsets [⟨9, u, 0⟩, ⟨8, v, 0⟩]

/-- The last position of page 0 and the first of page 1. Both words CLEAN, each CORRECTED, both, and each UNCORRECTABLE, on a full line and with n at the fill count; beyond it; an address
queued, seven queued and eight. -/
theorem witness_TapPairIsJudged :
    let w : State → ReadOutcome × ReadOutcome := fun s =>
      (checkWord (s.dramWord (translate farLine.pages (posBack 10 (256 / 256) farLine.len))),
       checkWord (s.dramWord (translate farLine.pages (posBack 10 (256 / 256 + 1) farLine.len))))
    let q : Nat → State := fun n => { State.reset with corrections := (List.range n).map fun a => ⟨a, 0⟩ }
    (farLine.pool = .far ∧ 256 / 256 + 1 ≤ farLine.f ∧ State.reset.errors.corrected ≤ 65535) ∧
      w (farWords 0 0) = (.clean 5, .clean 6) ∧ w (farWords 1 0) = (.corrected 5, .clean 6) ∧
      w (farWords 0 1) = (.clean 5, .corrected 6) ∧ w (farWords 1 2) = (.corrected 5, .corrected 6) ∧
      w (farWords 3 0) = (.uncorrectable, .clean 6) ∧ w (farWords 0 3) = (.clean 5, .uncorrectable) ∧
      (256 / 256 = ({ farLine with f := 1 } : LineRun).f ∧ ({ farLine with f := 1 } : LineRun).pages = farLine.pages) ∧
      ([7, 3][2047 / 2048]? = some 7 ∧ [7, 3][2048 / 2048]? = some 3) ∧
      ({ farLine with f := 0 } : LineRun).f < 256 / 256 ∧ (⟨0, 0, .near, [0]⟩ : LineRun).pool = .near ∧
      (3 ∈ (q 7).corrections.map WriteBack.addr ∧ 9 ∉ (q 7).corrections.map WriteBack.addr ∧ (q 7).corrections.length < 8 ∧
        9 ∉ (q 8).corrections.map WriteBack.addr ∧ 8 ≤ (q 8).corrections.length) := by decide +kernel

theorem witness_MemErrorsReadsTheRecord :
    Takes State.reset ∧ State.reset.run = none ∧ Takes (small .held) ∧ (small .held).run.isSome = true ∧ 2 ≤ (2 : Byte).toNat :=
  ⟨takes_reset, rfl, takes_small _, rfl, by decide⟩

/-- Instance 0 HELD over the FAR line, with an access in flight or none. -/
def held (a : Option LineAccess) : State :=
  { withInst { instIn .held with running := some { running with lines := [farLine] } } (small .held) with access := a }

/-- Instance 24; lines 0, 1, 7 and 8; offset 0 and 1; counts 0, 1, 256 and 257; words up to 2047 behind and 2048; an access in flight. -/
theorem witness_LineAccessIsRefusedOrAccepted :
    let body := [instByte 0, (0 : Byte)] ++ beBytes 4 1792 ++ beBytes 2 256
    Takes State.reset ∧ State.reset.run = none ∧ Takes (held none) ∧ (held none).run.isSome = true ∧
      (frame 0x51 body).body = body ∧
      ([7, -8388608].length = 2 ∧ (∀ v ∈ [(7 : Int), -8388608], sampleOk v)) ∧
      (24 ≤ (24 : Byte).toNat ∧ 7 < (8 : Byte).toNat ∧ (7 : Byte).toNat ≤ 7 ∧ 256 < 257) ∧ ((small .running).inst 0).state ≠ .held ∧
      (((held none).inst 0).state = .held ∧ ((held none).inst 0).running = some { running with lines := [farLine] } ∧
        [farLine].length ≤ (1 : Byte).toNat ∧ [farLine][(0 : Byte).toNat]? = some farLine) ∧
      (1792 + 256 - 1 ≤ min farLine.f (farLine.len - 1) ∧ min farLine.f (farLine.len - 1) < 1793 + 256 - 1) ∧
      (held none).access = none ∧ Takes (held (some (access .read))) ∧ (held (some (access .read))).access.isSome = true := by
  refine ⟨takes_reset, rfl, takes rfl (by decide), rfl, rfl, ⟨rfl, ?_⟩, by decide, by decide +kernel, by decide +kernel,
    by decide, rfl, takes rfl (by decide), rfl⟩
  intro v hv
  rcases List.mem_pair.mp hv with rfl | rfl <;> exact ⟨by decide, by decide⟩

/-- A state with write-backs queued and a service event due. -/
def serviceState (n : Option Nat) (cs : List WriteBack) (a : Option LineAccess) : State :=
  { held a with serviceDue := n, corrections := cs }

theorem serviceInv_serviceState (n : Option Nat) (a : Option LineAccess) :
    ServiceInv (serviceState n [⟨4, 7⟩, ⟨5, 8⟩] a) :=
  ⟨by show 2 ≤ 8; decide, by show [4, 5].Nodup; decide, by show 0 ≤ 65535; decide, by show 0 ≤ 65535; decide,
   by show 0 ≤ 65535; decide⟩

/-- A FAR read with its words one and two behind, as written, with `u` inverted in the first. -/
def farRead (a : LineAccess) (u : BitVec 24) : State :=
  { held (some a) with dram := (farWords u 0).dram, serviceDue := some 1 }

theorem serviceInv_farRead (a : LineAccess) (u : BitVec 24) : ServiceInv (farRead a u) :=
  ⟨by show 0 ≤ 8; decide, by show ([] : List Nat).Nodup; decide, by show 0 ≤ 65535; decide, by show 0 ≤ 65535; decide,
   by show 0 ≤ 65535; decide⟩

/-- No event due; one slot for two write-backs; an access that waits; no slot; one slot for two write-backs and a FAR access behind them; a read's word but last and last, of each outcome; a write
that goes on and one that ends; a NEAR read and a NEAR write. -/
theorem witness_ServiceEventSpendsItsSlots :
    let w : LineAccess := { access (.write [1, 2]) with pool := .far }
    let r : Nat → LineAccess := fun n => { access .read with pool := .far, positions := [9, 8], served := n }
    let near : AccessOp → State := fun op => { small .held with serviceDue := some 0, access := some (access op) }
    let unseen : LineAccess := { access .read with frameSeen := false }
    (serviceState none [] none).wordsExist = true ∧ (serviceState none [] none).serviceDue = none ∧
      (serviceState (some 1) [⟨4, 7⟩, ⟨5, 8⟩] none).wordsExist = true ∧
      ServiceInv (serviceState (some 1) [⟨4, 7⟩, ⟨5, 8⟩] none) ∧
      ((serviceState (some 1) [⟨4, 7⟩, ⟨5, 8⟩] (some unseen)).wordsExist = true ∧ unseen.pool = .near ∧ unseen.frameSeen = false) ∧
      ((serviceState (some 0) [⟨4, 7⟩, ⟨5, 8⟩] (some w)).wordsExist = true ∧
        (serviceState (some 0) [⟨4, 7⟩, ⟨5, 8⟩] (some w)).serviceDue = some 0) ∧
      ((serviceState (some 1) [⟨4, 7⟩, ⟨5, 8⟩] (some w)).wordsExist = true ∧
        (serviceState (some 1) [⟨4, 7⟩, ⟨5, 8⟩] (some w)).corrections = ⟨4, 7⟩ :: [⟨5, 8⟩]) ∧
      (([0, 1, 3].all fun u => [0, 1].all fun n => (farRead (r n) u).wordsExist && (farRead (r n) u).corrections == []) = true ∧
        (∀ u n, ServiceInv (farRead (r n) u)) ∧ ((r 0).served + 1 < (r 0).positions.length ∧ (r 1).served + 1 = (r 1).positions.length) ∧
        ((farRead (r 0) 0).inst 0).running = some { running with lines := [farLine] } ∧
        ([0, 1, 3].map fun u => checkWord ((farRead (r 0) u).dramWord (translate farLine.pages 9))) =
          [.clean 5, .corrected 5, .uncorrectable]) ∧
      ((serviceState (some 3) [⟨4, 7⟩, ⟨5, 8⟩] (some w)).wordsExist = true ∧
        (w.pool = .far ∧ w.op = .write [1, 2] ∧ [(⟨4, 7⟩ : WriteBack), ⟨5, 8⟩].length ≤ 3 ∧
          w.served + (3 - 2) < w.positions.length ∧ w.positions.length ≤ w.served + (4 - 2)) ∧
        ([0, 1].map fun j => translate farLine.pages (w.positions.getD j 0)).Nodup) ∧
      ∀ op ∈ [AccessOp.read, .write [1, 2]], (near op).wordsExist = true ∧ (access op).frameSeen = true ∧
        (access op).served < (access op).positions.length ∧ ((near op).inst 0).running = some running ∧
        running.lines[0]? = some ⟨0, 0, .near, [0]⟩ ∧
        ([0, 1].map fun j => translate [0] ((access op).positions.getD j 0)).Nodup :=
  ⟨by decide +kernel, rfl, by decide +kernel, serviceInv_serviceState _ _, by decide +kernel, by decide +kernel, by decide +kernel,
   ⟨by decide +kernel, fun _ _ => serviceInv_farRead _ _, by decide, by decide +kernel, by decide +kernel⟩, by decide +kernel,
   by decide +kernel⟩

theorem witness_ConditionsLatch :
    (Notices.reset.config (Condition.limit 23).group).enabled = true ∧ Condition.limit 23 ≠ .outClip 0 ∧
      ({ Notices.reset with instCfg := ⟨false, 2⟩ }.config (Condition.limit 23).group).enabled = false ∧
      Group.port ≠ (Condition.limit 23).group := by decide

/-- Group 5 and 6, enable 1 and 2, priority 3 and 4. -/
theorem witness_NoticeConfigAndRead :
    Takes State.reset ∧ (6 ≤ (6 : Byte).toNat ∧ 2 ≤ (2 : Byte).toNat ∧ 4 ≤ (4 : Byte).toNat) ∧
      ((1 : Byte).toNat ≤ 1 ∧ (3 : Byte).toNat ≤ 3 ∧
        [Group.port, .memory, .inst, .cue, .tempo, .link][(5 : Byte).toNat]? = some .link) ∧
      (∀ g, (Notices.reset.config g).priority ≤ 3) :=
  ⟨takes_reset, by decide, by decide, fun g => by cases g <;> decide⟩

/-- Counts 0, 1, 6 and 7; two entries of one group; group 6 and the INST group's flags 63 and 64 behind good entries. -/
theorem witness_NoticeClearClearsWhatItNames :
    let bits : List Byte := List.replicate 18 0xFF
    let six : List (Byte × Byte × List Byte) := [(0, 7, bits), (1, 7, bits), (2, 63, bits), (2, 1, bits), (4, 1, bits), (5, 3, bits)]
    let good : List (Byte × Byte × List Byte) → Bool := fun es =>
      es.all fun e => match [3, 3, 6, 1, 1, 2][e.1.toNat]? with
        | some m => decide (e.2.1.toNat < 2 ^ m)
        | none => false
    Takes State.reset ∧ (([] : List Byte).length = 20 * (0 : Byte).toNat) ∧
      ((List.replicate 140 (0 : Byte)).length = 20 * (7 : Byte).toNat ∧ 6 < (7 : Byte).toNat) ∧
      (1 ≤ six.length ∧ six.length ≤ 6 ∧ (∀ e ∈ six, e.2.2.length = 18) ∧ good six = true ∧ good (six.take 1) = true) ∧
      (6 ≤ (6 : Byte).toNat ∧ (63 : Byte).toNat < 2 ^ 6 ∧ 2 ^ 6 ≤ (64 : Byte).toNat) ∧
      good [(0, 7, bits), (6, 0, bits)] = false ∧ good [(0, 7, bits), (2, 64, bits)] = false :=
  ⟨takes_reset, by decide +kernel⟩

/-- No mark; LOCKED with bad counts 2 and 3; FREE with good counts 14 and 15; the ends of a good period; the counts reached. -/
theorem witness_FrameClockFollowsTheEdges :
    let m : LockState → Nat → Nat → State := fun l g b => clocked ⟨l, g, b, some 0, 0⟩
    (∀ x ∈ [State.reset, m .locked 0 2, m .locked 0 3, m .free 14 0, m .free 15 0],
      x.resetPin = false ∧ MonitorInv x ∧ x.wordsExist = true) ∧
      State.reset.monitor.sinceMark = none ∧ (m .locked 0 2).monitor.sinceMark = some 0 ∧
      (State.reset.clockRate.goodLow ≤ 0 + 502 ∧ 0 + 522 ≤ State.reset.clockRate.goodHigh) ∧
      (¬ State.reset.clockRate.goodLow ≤ 0 + 501 ∧ ¬ 0 + 523 ≤ State.reset.clockRate.goodHigh) ∧
      ((m .locked 0 4).monitor.bad = 4 ∧ (m .free 16 0).monitor.good = 16) := by
  refine ⟨?_, by decide⟩
  intro x hx
  simp only [List.mem_cons, List.not_mem_nil, or_false] at hx
  rcases hx with rfl | rfl | rfl | rfl | rfl <;> refine ⟨rfl, ⟨by decide, by decide⟩, rfl⟩

/-- SETUP and RUN, whole and cut off after none of the frame's writes and after its one write. -/
theorem witness_FrameStartHandsOver :
    (PoolInv (part .running) ∧ RunningInv (part .running)) ∧ (∀ n ∈ [0, 1], (⟨[], [], some n⟩ : FrameEnv).cut = some n) ∧
      quiet.cut = none ∧
    State.reset.wordsExist = true ∧ State.reset.serviceDue = none ∧ State.reset.cue.due = false ∧
      (∀ i, (State.reset.inst i).decision = none) ∧ (part .running).wordsExist = true ∧ (part .running).serviceDue = none ∧
      (part .running).cue.due = false ∧ (∀ i, ((part .running).inst i).decision = none) ∧ (part .running).run = some busyRun :=
  ⟨⟨poolInv_part _, runningInv_part _⟩, by decide +kernel⟩

theorem witness_InterpolatedReadLiesBetween :
    ((sourceSample ⟨0, 0, .near, [0]⟩ (640 / 256) State.reset).1.sample = some 0 ∧
      (sourceSample ⟨0, 0, .near, [0]⟩ (640 / 256 + 1) State.reset).1.sample = some 0) ∧
      sampleOk (-8388608) ∧ sampleOk 8388607 ∧ 255 < 256 :=
  ⟨by decide, ⟨by decide, by decide⟩, ⟨by decide, by decide⟩, by decide⟩

/-- A read that is formed and one that is not; the ends of the damp and of a sample. -/
theorem witness_DampLiesBetween :
    (tapRead farLine 256 (farWords 0 0) = some 5 ∧ tapRead farLine 256 (farWords 3 0) = none) ∧
      32767 ≤ 32767 ∧ sampleOk (-8388608) ∧ sampleOk 8388607 :=
  ⟨by decide +kernel, by decide, ⟨by decide, by decide⟩, by decide, by decide⟩

theorem witness_GainsSlewToTheirTargets :
    0 < 512 ∧ 512 * 2 ≤ ((-1024 : Int) - 0).natAbs ∧ InstState.running ≠ .held := by decide

/-- The shortest line, and the ends of the phase. -/
theorem witness_DelayIsFormedAndClamped :
    2048 ≤ ((frameCtx .r48 0 (instIn .running) program running (part .running)).lineOf tap).len ∧ 4294967295 < 4294967296 := by
  decide +kernel

/-- The window at its last frame but one and at its last; the output gain at most 32767; a NEAR line and a FAR line, each with its own word. -/
theorem witness_InstanceFrameArithmetic :
    running.lines.length = program.lines.length ∧ ({ running with windowProgress := 254 } : Running).windowProgress + 1 < 256 ∧
      256 ≤ ({ running with windowProgress := 255 } : Running).windowProgress + 1 ∧
      moveNat 512 running.outGain (outTarget .running program) ≤ 32767 ∧
      running.lines[0]? = some ⟨0, 0, .near, [0]⟩ ∧ program.lines[0]? = some ⟨.near, 1, .a⟩ ∧
      (running.lines.map fun l : LineRun => Machine.translate l.pages l.w).Nodup ∧
      ({ running with lines := [farLine] } : Running).lines[0]? = some farLine := by decide

theorem witness_WindowLevelCode :
    (instIn .running).running = some running ∧ (instIn .running).state ≠ .spilling ∧ (1 ≤ 1 ∧ 14 ≤ 14) := by decide

/-- Windows of 255 and 256 frames, in SPILLING and in RUNNING. -/
theorem witness_WindowEndJudgesTheTail :
    let at' : InstState → Nat → State := fun st n =>
      withInst { instIn st with running := some { running with windowProgress := n } } (small st)
    ((small .ready).inst 0).running = none ∧
      (∀ st ∈ [InstState.spilling, .running], ∀ n ∈ [255, 256],
        ((at' st n).inst 0).running = some { running with windowProgress := n } ∧ ((at' st n).inst 0).program = some program ∧
          ((at' st n).inst 0).state = st) ∧ 255 < 256 ∧ 256 ≤ 256 := by decide +kernel

theorem witness_EachInstanceIsProcessedOnItsOwn :
    PoolInv (part .running) ∧ RunningInv (part .running) ∧ (part .running).run = some busyRun ∧
      ((part .running).inst 0).program = some program ∧ ((part .running).inst 0).running = some running ∧
      ((part .running).inst 1).running = none :=
  ⟨poolInv_part _, runningInv_part _, rfl, by decide +kernel⟩

theorem witness_NoCommandFaults : PoolInv (part .spilling) ∧ PoolInv (part .waiting) := ⟨poolInv_part _, poolInv_part _⟩

/-- The part with instance 0 RUNNING and a tap edge waiting: the first edge of a sequence becomes its last tap. -/
def stepping : State :=
  queued .tapEdge (part .running)

theorem steps_stepping : after (fun t => t.tempo.lastTap) (step stepping) = some (some 0) := by decide +kernel

theorem sameTable_stepping : (part .running).SameTable stepping :=
  ⟨rfl, rfl, rfl, rfl, rfl, fun _ => ⟨rfl, rfl, rfl, rfl⟩⟩

theorem tempoInv_stepping : TempoInv stepping where
  tempo := ⟨by show 3000 ≤ 12000; decide, by show 12000 ≤ 30000; decide⟩
  count := Nat.zero_le 4
  intervals _ _ i hi := by simp [stepping, queued, part, State.reset, Tempo.reset] at hi
  age _ _ a ha := by simp [stepping, queued, part, State.reset, Tempo.reset] at ha
  setup h := by simp [stepping, queued, part] at h
  off h := by simp [stepping, queued, part, State.reset, Tempo.reset] at h

theorem witness_LinkCueAndTempoInvariantsKept :
    (∃ t, step stepping = .next t) ∧ LinkInv stepping ∧ CueInv stepping ∧ TempoInv stepping :=
  ⟨⟨_, rfl⟩,
   { inbox := by decide, outbox := by decide, reserved := rfl, origin := rfl, head := rfl, receiver := trivial },
   { list := by decide, fired := by decide, domain := (by intro _ h; nomatch h), origin := rfl, pending := .inr ⟨rfl, rfl⟩,
     due := (by intro h; nomatch h), setup := (by intro h; nomatch h) },
   tempoInv_stepping⟩

/-- A record in slot 0 too. -/
theorem libraryInv_stocked : LibraryInv (stocked State.reset) := by
  intro k r h
  have : k = 0 ∧ r = ⟨program.record, program⟩ := by
    by_cases hk : k = 0
    · subst hk; exact ⟨rfl, by simpa [stocked, eq_comm] using h⟩
    · rw [stocked, State.setLibSlot_libSlot_ne hk] at h
      simp [State.libSlot, State.reset] at h
  obtain ⟨rfl, rfl⟩ := this
  exact ⟨by decide +kernel, by decide +kernel, by decide +kernel⟩

theorem witness_TableInvariantsKept :
    (∃ t, step stepping = .next t) ∧ InstancesInv stepping ∧ BudgetInv stepping ∧ ProgramsInv stepping ∧
      LibraryInv (stocked State.reset) :=
  ⟨⟨_, rfl⟩, (instancesInv_part _).congr sameTable_stepping,
   { instances := (instancesInv_part _).congr sameTable_stepping,
     sum := fun r h => by
       obtain rfl : busyRun = r := Option.some.inj h
       decide +kernel,
     bound := fun r h => by
       obtain rfl : busyRun = r := Option.some.inj h
       decide },
   (programsInv_part _).congr sameTable_stepping, libraryInv_stocked⟩

theorem witness_PlainInvariantsKept :
    (∃ t, step stepping = .next t) ∧ Memory.wf stepping = true ∧ ServiceInv stepping ∧ MonitorInv stepping ∧
      NoticesInv stepping ∧ PortsInv stepping :=
  ⟨⟨_, rfl⟩, rfl, ⟨by decide, by decide, by decide, by decide, by decide⟩, ⟨by decide, by decide⟩,
   fun g => by cases g <;> decide, fun k => by
     simp [stepping, queued, part, State.reset, Ports.reset, sampleOk]⟩

theorem witness_PoolInvariantKept : PoolInv stepping ∧ ∃ t, step stepping = .next t :=
  ⟨(poolInv_part _).congr sameTable_stepping rfl rfl rfl, _, rfl⟩

theorem witness_RunningInvariantKept : RunningInv stepping ∧ TailInv stepping ∧ ∃ t, step stepping = .next t :=
  ⟨(runningInv_part _).congr sameTable_stepping rfl, by unfold TailInv; decide +kernel, _, rfl⟩

end Sys2Proof.Tests
end

section
/-! The interpolated read (R36): a mean of two integers whose weights are not negative, rounded down after an addend smaller than the
sum of the weights, stays between the two. -/

namespace Sys2Proof.Machine

/-! ### Weighted sums and their rounded means -/

theorem mul_le_weightedSum {lo a b p q : Int} (ha : lo ≤ a) (hb : lo ≤ b) (hp : 0 ≤ p) (hq : 0 ≤ q) :
    lo * (p + q) ≤ a * p + b * q := by
  rw [mul_add]
  exact add_le_add (mul_le_mul_of_nonneg_right ha hp) (mul_le_mul_of_nonneg_right hb hq)

theorem weightedSum_le_mul {hi a b p q : Int} (ha : a ≤ hi) (hb : b ≤ hi) (hp : 0 ≤ p) (hq : 0 ≤ q) :
    a * p + b * q ≤ hi * (p + q) := by
  rw [mul_add]
  exact add_le_add (mul_le_mul_of_nonneg_right ha hp) (mul_le_mul_of_nonneg_right hb hq)

theorem min_le_weightedMean {a b p q c : Int} (hp : 0 ≤ p) (hq : 0 ≤ q) (hm : 0 < p + q) (hc : 0 ≤ c) :
    min a b ≤ (a * p + b * q + c) / (p + q) := by
  have hsum := mul_le_weightedSum (min_le_left a b) (min_le_right a b) hp hq
  exact (Int.le_ediv_iff_mul_le hm).2 (by omega)

theorem weightedMean_le_max {a b p q c : Int} (hp : 0 ≤ p) (hq : 0 ≤ q) (hm : 0 < p + q) (hc : c < p + q) :
    (a * p + b * q + c) / (p + q) ≤ max a b := by
  have hsum := weightedSum_le_mul (le_max_left a b) (le_max_right a b) hp hq
  have hlt : a * p + b * q + c < (max a b + 1) * (p + q) := by rw [add_mul, one_mul]; omega
  exact Int.lt_add_one_iff.1 (Int.ediv_lt_of_lt_mul hm hlt)

/-! ### Samples -/

/-- What lies between two samples needs no saturation. -/
theorem sampleOk_of_between {a b r : Int} (ha : sampleOk a) (hb : sampleOk b) (hlo : min a b ≤ r) (hhi : r ≤ max a b) :
    sampleOk r :=
  ⟨(le_min ha.1 hb.1).trans hlo, hhi.trans (max_le ha.2 hb.2)⟩

theorem sampleOk.natAbs_weightedSum_le {a b p q : Int} (ha : sampleOk a) (hb : sampleOk b) (hp : 0 ≤ p) (hq : 0 ≤ q) :
    ((a * p + b * q).natAbs : Int) ≤ 8388608 * (p + q) := by
  have hlo := mul_le_weightedSum ha.1 hb.1 hp hq
  have hhi := weightedSum_le_mul (ha.2.trans (by decide : (8388607 : Int) ≤ 8388608)) (hb.2.trans (by decide)) hp hq
  omega

/-! ### The interpolated read -/

@[simp] theorem interpolate_zero (s0 s1 : Int) : interpolate s0 s1 0 = s0 := by
  simp only [interpolate, Nat.cast_zero]
  omega

theorem min_le_interpolate {f : Nat} (s0 s1 : Int) (hf : f ≤ 256) : min s0 s1 ≤ interpolate s0 s1 f := by
  have h := min_le_weightedMean (a := s0) (b := s1) (p := 256 - f) (q := f) (c := 128)
    (by omega) (by omega) (by omega) (by decide)
  rwa [sub_add_cancel] at h

theorem interpolate_le_max {f : Nat} (s0 s1 : Int) (hf : f ≤ 256) : interpolate s0 s1 f ≤ max s0 s1 := by
  have h := weightedMean_le_max (a := s0) (b := s1) (p := 256 - f) (q := f) (c := 128)
    (by omega) (by omega) (by omega) (by omega)
  rwa [sub_add_cancel] at h

theorem sampleOk_interpolate {s0 s1 : Int} {f : Nat} (h0 : sampleOk s0) (h1 : sampleOk s1) (hf : f ≤ 256) :
    sampleOk (interpolate s0 s1 f) :=
  sampleOk_of_between h0 h1 (min_le_interpolate s0 s1 hf) (interpolate_le_max s0 s1 hf)

/-- The largest intermediate of the read (R36). -/
theorem natAbs_interpolateSum_le {s0 s1 : Int} {f : Nat} (h0 : sampleOk s0) (h1 : sampleOk s1) (hf : f ≤ 256) :
    (s0 * (256 - (f : Int)) + s1 * (f : Int)).natAbs ≤ 8388608 * 256 := by
  have h := h0.natAbs_weightedSum_le h1 (p := 256 - f) (q := f) (by omega) (by omega)
  rw [sub_add_cancel] at h
  exact_mod_cast h

theorem tapRead_of_samples {l : LineRun} {d : Nat} {s : State} {s0 s1 : Int}
    (h0 : (sourceSample l (d / 256) s).1.sample = some s0) (h1 : (sourceSample l (d / 256 + 1) s).1.sample = some s1) :
    tapRead l d s = some (interpolate s0 s1 (d % 256)) := by
  simp only [tapRead, h0, h1]

/-- Settles O46: the weights 256 − f and f are not negative and sum to 256, and the addend 128 is less than that sum. -/
theorem interpolatedReadLiesBetween : Obligations.InterpolatedReadLiesBetween := by
  refine ⟨fun l d s s0 s1 h0 h1 => tapRead_of_samples h0 h1, fun s0 s1 f h0 h1 hf => ⟨rfl, ?_, ?_, ?_, ?_, ?_⟩⟩
  · rintro rfl
    exact interpolate_zero s0 s1
  · exact min_le_interpolate s0 s1 hf.le
  · exact interpolate_le_max s0 s1 hf.le
  · exact sampleOk_interpolate h0 h1 hf.le
  · exact natAbs_interpolateSum_le h0 h1 hf.le

end Sys2Proof.Machine
end

section
/-! The tap tempo (R54, R55): what a TAP edge does in each of the four tests, what the interval list becomes, and why the tempo of a
list in range needs no clamp: the mean of the list lies in the range of its members. -/

namespace Sys2Proof.Machine

/-! ### The interval list -/

theorem deviates_iff (list : List Nat) (i : Nat) :
    deviates list i = true ↔
      0 < list.length ∧ list.sum < ((i : Int) * (list.length : Int) - (list.sum : Int)).natAbs * 4 := by
  simp only [deviates, Bool.and_eq_true, decide_eq_true_eq, gt_iff_lt]

theorem takeInterval_of_deviates {list : List Nat} {i : Nat} (h : deviates list i = true) : takeInterval list i = [i] := by
  simp [takeInterval, h]

theorem takeInterval_of_length_lt {list : List Nat} {i : Nat} (h : ¬ deviates list i = true) (hlen : list.length < 4) :
    takeInterval list i = list ++ [i] := by
  simp [takeInterval, h, hlen.ne]

theorem takeInterval_of_length_eq {list : List Nat} {i : Nat} (h : ¬ deviates list i = true) (hlen : list.length = 4) :
    takeInterval list i = list.tail ++ [i] := by
  simp [takeInterval, h, hlen]

/-! ### The tempo of an interval list -/

theorem clampTempo_eq_max_min (t : Nat) : clampTempo t = max 3000 (min 30000 t) := by
  unfold clampTempo
  omega

theorem tempoOf_eq (rate : SampleRate) (list : List Nat) :
    tempoOf rate list = max 3000 (min 30000 ((2 * (6000 * rate.hz * list.length) + list.sum) / (2 * list.sum))) :=
  clampTempo_eq_max_min _

theorem SampleRate.hz_pos (rate : SampleRate) : 0 < rate.hz := by
  cases rate <;> decide

theorem SampleRate.five_mul_hz_div (rate : SampleRate) : 5 * (rate.hz / 5) = rate.hz := by
  cases rate <;> rfl

/-- A list of intervals in range has its sum between its count times the bounds. -/
theorem sum_of_intervals_mem_range {lo hi : Nat} {l : List Nat} (h : ∀ n ∈ l, lo ≤ n ∧ n ≤ hi) :
    l.length * lo ≤ l.sum ∧ l.sum ≤ l.length * hi :=
  ⟨l.card_nsmul_le_sum lo fun n hn => (h n hn).1, l.sum_le_card_nsmul hi fun n hn => (h n hn).2⟩

/-- The bounds of R55 in the product `m` of the rate and the count: a mean of at most 2 × Fs gives at least 3000, and one of at least
Fs / 5 at most 30000. -/
theorem tempo_quotient_mem_range {m S : Nat} (hS : 0 < S) (hlo : m ≤ 5 * S) (hhi : S ≤ 2 * m) :
    3000 ≤ (2 * (6000 * m) + S) / (2 * S) ∧ (2 * (6000 * m) + S) / (2 * S) ≤ 30000 := by
  have hpos : 0 < 2 * S := by omega
  constructor
  · rw [Nat.le_div_iff_mul_le hpos]
    omega
  · rw [← Nat.lt_succ_iff, Nat.div_lt_iff_lt_mul hpos]
    omega

/-- Intervals in range need no clamp of their tempo (R55). -/
theorem tempo_of_intervals_mem_range {rate : SampleRate} {l : List Nat} (hne : l ≠ [])
    (h : ∀ n ∈ l, rate.hz / 5 ≤ n ∧ n ≤ 2 * rate.hz) :
    3000 ≤ (2 * (6000 * rate.hz * l.length) + l.sum) / (2 * l.sum) ∧
      (2 * (6000 * rate.hz * l.length) + l.sum) / (2 * l.sum) ≤ 30000 := by
  obtain ⟨hlo, hhi⟩ := sum_of_intervals_mem_range h
  have hm : rate.hz * l.length = 5 * (l.length * (rate.hz / 5)) := by
    rw [mul_left_comm, rate.five_mul_hz_div, mul_comm]
  have hm' : l.length * (2 * rate.hz) = 2 * (rate.hz * l.length) := by ring
  have hpos : 0 < rate.hz * l.length := Nat.mul_pos rate.hz_pos (List.length_pos_iff.2 hne)
  rw [mul_assoc 6000]
  exact tempo_quotient_mem_range (by omega) (by omega) (by omega)

/-! ### The TAP edge -/

theorem exec_tapEdge (s : State) : exec .tapEdge s = execTapEdge s := rfl

/-- SETUP, an asserted RESET and the tap mode OFF each ignore the edge (R52, R53). -/
theorem exec_tapEdge_ignored {s : State} (h : s.run = none ∨ s.resetPin = true ∨ s.tempo.tapMode = false) :
    exec .tapEdge s = .next s := by
  rw [exec_tapEdge, execTapEdge]
  cases hr : s.run with
  | none => rfl
  | some r =>
    rcases h with h | h | h
    · simp [hr] at h
    · simp [h]
    · simp [h]

/-- In RUN, with RESET released and the tap mode ON, the edge is tested by R54. -/
theorem exec_tapEdge_taken {s : State} {r : Run} (hrun : s.run = some r) (hpin : s.resetPin = false)
    (hmode : s.tempo.tapMode = true) : exec .tapEdge s = .next (s.tapEdge r.rate) := by
  simp [exec_tapEdge, execTapEdge, hrun, hpin, hmode]

section
variable {rate : SampleRate} {s : State} {n : Nat}

/-- R54, test 1: no last tap. -/
theorem State.tapEdge_first (h : s.tempo.lastTap = none) :
    s.tapEdge rate = { s with tempo := { s.tempo with lastTap := some 0 } } := by
  simp only [State.tapEdge, h]

/-- R54, test 2: debounce. -/
theorem State.tapEdge_bounce (h : s.tempo.lastTap = some n) (hn : n < rate.hz / 25) : s.tapEdge rate = s := by
  simp only [State.tapEdge, h, if_pos hn]

/-- R54, test 3: out of range. -/
theorem State.tapEdge_outOfRange (h : s.tempo.lastTap = some n) (hn : rate.hz / 25 ≤ n)
    (hout : n < rate.hz / 5 ∨ 2 * rate.hz < n) : s.tapEdge rate = { s with tempo := s.tempo.newSequence } := by
  simp only [State.tapEdge, h, if_neg hn.not_gt, if_pos hout]

/-- R54, test 4: in range, which is past the debounce as well. -/
theorem State.tapEdge_inRange (h : s.tempo.lastTap = some n) (hlo : rate.hz / 5 ≤ n) (hhi : n ≤ 2 * rate.hz) :
    s.tapEdge rate =
      State.raise (.tapTempo (tempoOf rate (takeInterval s.tempo.intervals n)))
        { s with tempo := s.tempo.interval rate n } := by
  have hbounce : ¬ n < rate.hz / 25 := by omega
  have hout : ¬ (n < rate.hz / 5 ∨ 2 * rate.hz < n) := by omega
  simp only [State.tapEdge, h, if_neg hbounce, if_neg hout, Tempo.interval]

end

/-- Settles O34: the edge is ignored or goes to one of the four tests of R54; in range, the list is that of `takeInterval`, and the sum of
a list in range lies between its count times Fs / 5 and 2 × Fs. -/
theorem tapEdgeFindsTheTempo : Obligations.TapEdgeFindsTheTempo := by
  refine ⟨fun s h => exec_tapEdge_ignored h, fun s r hrun hpin hmode => ?_,
    fun rate l hne _ h => tempo_of_intervals_mem_range hne h⟩
  rw [exec_tapEdge_taken hrun hpin hmode]
  refine ⟨fun hnone => ?_, fun n hn => ⟨fun hlt => ?_, fun hle hout => ?_, fun hlo hhi => ?_⟩⟩
  · rw [State.tapEdge_first hnone]
  · rw [State.tapEdge_bounce hn hlt]
  · rw [State.tapEdge_outOfRange hn hle hout]
    rfl
  · intro far
    have hfar : deviates s.tempo.intervals n = true ↔ far := deviates_iff _ _
    rw [← hfar]
    refine ⟨takeInterval s.tempo.intervals n, takeInterval_of_deviates, takeInterval_of_length_lt,
      takeInterval_of_length_eq, fun _ => ?_⟩
    rw [State.tapEdge_inRange hn hlo hhi, Tempo.interval, tempoOf_eq]

end Sys2Proof.Machine
end

section
/-! LOAD and UNLOAD (R74 to R76): a request that names an instance is answered with that instance's state after its operation, and the
operations are stated once for each group of states that the outcome table of R74 treats alike. -/

namespace Sys2Proof.Machine

/-! ### An instance request taken in RUN (R73, R189) -/

/-- In RUN, only the body length and SETUP itself are refused by the request handler. -/
theorem State.precheck_takenInFlight_of_run {k : Kind} {f : Frame} {s : State} (rest : List Frame)
    (hrun : s.run.isSome = true) (hlen : k.lengthOk f.body = true) (hk : k ≠ .setup) :
    (s.takenInFlight rest).precheck k f = none := by
  refine State.precheck_eq_none hlen (fun hnone => ?_) (fun _ _ => hk)
  rw [State.takenInFlight_run] at hnone
  simp [hnone] at hrun

/-- In RUN, a frame of a row's own kind and of the right length reaches the row's owner. -/
theorem serveKind_of_run {k : Kind} {owner : Frame → State → State} {s : State} {f : Frame} {rest : List Frame}
    (htake : CanTake s f rest) (hrun : s.run.isSome = true) (hkind : Kind.ofByte f.kind = some k)
    (hlen : k.lengthOk f.body = true) (hk : k ≠ .setup) :
    serveKind k owner s = owner f (s.takenInFlight rest) :=
  serve_owner htake hkind rfl (State.precheck_takenInFlight_of_run rest hrun hlen hk)

theorem u1_eq (n : Nat) : u1 n = [BitVec.ofNat 8 n] := by
  simp [u1, beBytes]

/-- The reply to a request whose first body byte names an instance (R73, R203). -/
theorem answerInst_takenInFlight {f : Frame} {i : InstNo} (hbyte : byteAt f.body 0 = instByte i) (rest : List Frame)
    (st : Status) (s : State) : answerInst f (st, s.takenInFlight rest) = s.repliedInst f rest st i := by
  simp only [answerInst, instBody, hbyte, instOf_instByte, u1_eq]
  rfl

/-! ### LOAD (R74, R75) -/

section
variable {i : InstNo} {k : SlotNo} {s : State}

theorem State.doLoad_of_record {r : PresetRecord} (hstate : (s.inst i).state = .empty ∨ (s.inst i).state = .ready)
    (hrec : (s.libSlot k).record = some r) : s.doLoad i k = (.ok, s.modInst i (Inst.loaded k r.program)) := by
  rw [State.libSlot] at hrec
  rcases hstate with hempty | hready
  · simp only [State.doLoad, hempty, hrec]
  · simp only [State.doLoad, hready, hrec]

theorem State.doLoad_of_no_record (hstate : (s.inst i).state = .empty ∨ (s.inst i).state = .ready)
    (hrec : (s.libSlot k).record = none) : s.doLoad i k = (.empty, s) := by
  rw [State.libSlot] at hrec
  rcases hstate with hempty | hready
  · simp only [State.doLoad, hempty, hrec]
  · simp only [State.doLoad, hready, hrec]

/-- From WAITING on, a LOAD is refused whatever the slot holds. -/
theorem State.doLoad_busy (hempty : (s.inst i).state ≠ .empty) (hready : (s.inst i).state ≠ .ready) :
    s.doLoad i k = (.busy, s) := by
  unfold State.doLoad
  split
  · next h => exact absurd h hempty
  · next h => exact absurd h hready
  all_goals rfl

/-- LOAD does not look at the link. -/
theorem State.doLoad_takenInFlight (rest : List Frame) :
    (s.takenInFlight rest).doLoad i k = ((s.doLoad i k).1, (s.doLoad i k).2.takenInFlight rest) := by
  simp only [State.doLoad, State.takenInFlight_inst, State.takenInFlight_library]
  cases (s.inst i).state
  case empty | ready => cases s.library[k.val].record <;> rfl
  all_goals rfl

theorem exec_load (s : State) : exec .load s = .next (serveKind .load ownLoad s) := rfl

/-- A LOAD of a slot that exists, in RUN, is its operation with the reply. -/
theorem exec_load_of_run {f : Frame} {rest : List Frame} (htake : CanTake s f rest) (hrun : s.run.isSome = true)
    (hkind : f.kind = 0x20) (hbody : f.body = [instByte i, slotByte k]) :
    exec .load s = .next ((s.doLoad i k).2.repliedInst f rest (s.doLoad i k).1 i) := by
  have hbyte : byteAt f.body 0 = instByte i := by rw [hbody]; rfl
  have hslot : byteAt f.body 1 = slotByte k := by rw [hbody]; rfl
  have howner : ownLoad f (s.takenInFlight rest) = answerInst f ((s.takenInFlight rest).doLoad i k) := by
    simp only [ownLoad, hbyte, hslot, instOf_instByte, slotOf_slotByte]
  rw [exec_load, serveKind_of_run htake hrun (by rw [hkind]; rfl) (by rw [hbody]; rfl) (by decide), howner,
    State.doLoad_takenInFlight, answerInst_takenInFlight hbyte]

end

/-! ### UNLOAD (R74, R76) -/

section
variable {i : InstNo} {s : State}

theorem State.doUnload_of_empty (hempty : (s.inst i).state = .empty) : s.doUnload i = (.ok, s) := by
  simp only [State.doUnload, hempty]

theorem State.doUnload_of_ready (hready : (s.inst i).state = .ready) :
    s.doUnload i = (.ok, s.modInst i fun x => Inst.emptyWith x.routing) := by
  simp only [State.doUnload, hready]

theorem State.doUnload_busy (hempty : (s.inst i).state ≠ .empty) (hready : (s.inst i).state ≠ .ready) :
    s.doUnload i = (.busy, s) := by
  unfold State.doUnload
  split
  · next h => exact absurd h hempty
  · next h => exact absurd h hready
  all_goals rfl

/-- UNLOAD does not look at the link. -/
theorem State.doUnload_takenInFlight (rest : List Frame) :
    (s.takenInFlight rest).doUnload i = ((s.doUnload i).1, (s.doUnload i).2.takenInFlight rest) := by
  simp only [State.doUnload, State.takenInFlight_inst]
  cases (s.inst i).state <;> rfl

theorem exec_unload (s : State) : exec .unload s = .next (serveKind .unload (ownInst State.doUnload) s) := rfl

/-- An UNLOAD in RUN is its operation with the reply. -/
theorem exec_unload_of_run {f : Frame} {rest : List Frame} (htake : CanTake s f rest) (hrun : s.run.isSome = true)
    (hkind : f.kind = 0x21) (hbody : f.body = [instByte i]) :
    exec .unload s = .next ((s.doUnload i).2.repliedInst f rest (s.doUnload i).1 i) := by
  have hbyte : byteAt f.body 0 = instByte i := by rw [hbody]; rfl
  have howner : ownInst State.doUnload f (s.takenInFlight rest) = answerInst f ((s.takenInFlight rest).doUnload i) := by
    simp only [ownInst, hbyte, instOf_instByte]
  rw [exec_unload, serveKind_of_run htake hrun (by rw [hkind]; rfl) (by rw [hbody]; rfl) (by decide), howner,
    State.doUnload_takenInFlight, answerInst_takenInFlight hbyte]

end

/-- Settles O19: each request is its operation with the reply, and the operation answers as the table of R74 has it for the state. -/
theorem loadAndUnload : Obligations.LoadAndUnload := by
  intro s f rest i htake hrun
  refine ⟨fun k hkind hbody => ?_, fun hkind hbody => ?_⟩
  · rw [exec_load_of_run htake hrun hkind hbody]
    refine ⟨fun hstate => ⟨fun r hrec => ?_, fun hrec => ?_⟩, fun hempty hready => ?_⟩
    · rw [State.doLoad_of_record hstate hrec]
      rfl
    · rw [State.doLoad_of_no_record hstate hrec]
    · rw [State.doLoad_busy hempty hready]
  · rw [exec_unload_of_run htake hrun hkind hbody]
    refine ⟨fun hempty => ?_, fun hready => ?_, fun hempty hready => ?_⟩
    · rw [State.doUnload_of_empty hempty]
    · rw [State.doUnload_of_ready hready]
      rfl
    · rw [State.doUnload_busy hempty hready]

end Sys2Proof.Machine
end

section
/-! The level of a window (R111): the level code reaches a level from 1 to 15 exactly when the window peak reaches the power of two that
starts it, which gives the peaks of every level; and the window end makes that code the instance's last level. -/

namespace Sys2Proof.Machine

/-! ### Bit lengths and level codes -/

theorem lt_bitlength_iff {n x : Nat} : n < bitlength x ↔ 2 ^ n ≤ x := by
  unfold bitlength
  split
  case isTrue hzero =>
    have hpow : 0 < 2 ^ n := Nat.two_pow_pos n
    omega
  case isFalse hpos => rw [Nat.lt_succ_iff, Nat.le_log2 hpos]

theorem levelCode_le (peak : Nat) : levelCode peak ≤ 15 := Nat.min_le_left ..

/-- Each level from 1 on starts at its own power of two. -/
theorem le_levelCode_iff {n peak : Nat} (hn : 1 ≤ n) (hn15 : n ≤ 15) : n ≤ levelCode peak ↔ 2 ^ (n + 7) ≤ peak := by
  rw [← lt_bitlength_iff, levelCode]
  omega

theorem levelCode_eq_zero_iff {peak : Nat} : levelCode peak = 0 ↔ peak ≤ 255 := by
  have hfirst : 1 ≤ levelCode peak ↔ 256 ≤ peak := le_levelCode_iff le_rfl (by decide)
  omega

theorem levelCode_eq_fifteen_iff {peak : Nat} : levelCode peak = 15 ↔ 4194304 ≤ peak := by
  have hlast : 15 ≤ levelCode peak ↔ 4194304 ≤ peak := le_levelCode_iff (by decide) le_rfl
  have hle := levelCode_le peak
  omega

/-- A level between the lowest and the highest spans one doubling of the peak. -/
theorem levelCode_eq_iff {n peak : Nat} (hn : 1 ≤ n) (hn14 : n ≤ 14) :
    levelCode peak = n ↔ 2 ^ (n + 7) ≤ peak ∧ peak < 2 ^ (n + 8) := by
  have hreached : n ≤ levelCode peak ↔ 2 ^ (n + 7) ≤ peak := le_levelCode_iff hn (by omega)
  have hpassed : n + 1 ≤ levelCode peak ↔ 2 ^ (n + 8) ≤ peak := le_levelCode_iff (by omega) (by omega)
  rw [← hreached, ← not_le, ← hpassed]
  omega

/-! ### The window end of an instance -/

/-- What every window end does (R110, R111): the level is made and the next window begins. -/
def Inst.leveled (x : Inst) (r : Running) : Inst :=
  { x with lastLevel := some (levelCode r.windowPeak), running := some { r with windowProgress := 0, windowPeak := 0 } }

section
variable {x : Inst} {r : Running}

/-- The two window ends of an instance with running fields: with a spill decision, or without. -/
theorem Inst.windowEnd_cases (hrun : x.running = some r) :
    (∃ p, x.state = .spilling ∧ x.program = some p ∧
      x.windowEnd = spillDecision p (levelCode r.windowPeak) (x.leveled r)) ∨
    x.windowEnd = x.leveled r ∧ ¬ (x.state = .spilling ∧ x.program.isSome) := by
  simp only [Inst.windowEnd, hrun]
  split
  case h_1 p hstate hprog => exact .inl ⟨p, hstate, hprog, rfl⟩
  case h_2 hother =>
    refine .inr ⟨rfl, fun ⟨hstate, hprog⟩ => ?_⟩
    obtain ⟨p, hp⟩ := Option.isSome_iff_exists.mp hprog
    exact hother p hstate hp

theorem Inst.windowEnd_of_not_spilling (hrun : x.running = some r) (hstate : x.state ≠ .spilling) :
    x.windowEnd = x.leveled r := by
  obtain ⟨_, hspilling, -, -⟩ | ⟨hend, -⟩ := Inst.windowEnd_cases hrun
  · exact absurd hspilling hstate
  · exact hend

/-- The spill decision leaves the level that the window end has made. -/
theorem Inst.windowEnd_lastLevel (hrun : x.running = some r) : x.windowEnd.lastLevel = some (levelCode r.windowPeak) := by
  obtain ⟨_, -, -, hend⟩ | ⟨hend, -⟩ := Inst.windowEnd_cases hrun
  · rw [hend, spillDecision, Inst.leveled]
  · rw [hend, Inst.leveled]

end

/-- Settles O51: the level code is made at the window end in every state, and the start of each level gives the ranges. -/
theorem windowLevelCode : Obligations.WindowLevelCode :=
  ⟨fun _ _ hrun => ⟨Inst.windowEnd_lastLevel hrun, Inst.windowEnd_of_not_spilling hrun⟩,
   fun _ => ⟨levelCode_eq_zero_iff, levelCode_eq_fifteen_iff⟩,
   fun _ _ hn hn14 => levelCode_eq_iff hn hn14⟩

end Sys2Proof.Machine
end

section
/-! The cue list (R118 to R123): a CUE_ADD body names an entry exactly when its fields lie in their domains, and that entry is spelled
by the body again; then what CUE_ADD, CUE_CLEAR, CUE_LIST, GO and the GO pin do, in SETUP and in RUN. -/

namespace Sys2Proof.Machine

/-! ### A request that SETUP does not serve (R189) -/

theorem State.precheck_takenInFlight_of_setup {k : Kind} {f : Frame} {s : State} (rest : List Frame) (hrun : s.run = none)
    (hlen : k.lengthOk f.body = true) (hk : k.servedInSetup = false) (hreset : k ≠ .softReset) :
    (s.takenInFlight rest).precheck k f = some .notReady := by
  simp [State.precheck, hlen, hrun, hk, hreset]

/-- In SETUP, a frame of a row's own kind that SETUP does not serve is answered NOT_READY. -/
theorem serveKind_of_setup {k : Kind} {owner : Frame → State → State} {s : State} {f : Frame} {rest : List Frame}
    (htake : CanTake s f rest) (hrun : s.run = none) (hkind : Kind.ofByte f.kind = some k)
    (hlen : k.lengthOk f.body = true) (hk : k.servedInSetup = false) (hreset : k ≠ .softReset) :
    serveKind k owner s = s.replied f rest .notReady [] := by
  rw [serveKind, serve_of_canTake htake, if_pos ⟨hkind, rfl⟩,
    State.precheck_takenInFlight_of_setup rest hrun hlen hk hreset]
  rfl

/-! ### Bytes most significant first (R202) -/

theorem beVal_append_singleton (bs : List Byte) (b : Byte) : beVal (bs ++ [b]) = beVal bs * 256 + b.toNat := by
  simp [beVal]

theorem beVal_lt (bs : List Byte) : beVal bs < 256 ^ bs.length := by
  induction bs using List.reverseRecOn with
  | nil => decide
  | append_singleton bs b ih =>
    rw [beVal_append_singleton, List.length_append, List.length_singleton, pow_succ]
    have hb := b.isLt
    omega

/-- The last byte is the remainder, and the bytes before it spell the quotient. -/
theorem beBytes_succ (k n : Nat) : beBytes (k + 1) n = beBytes k (n / 256) ++ [BitVec.ofNat 8 n] := by
  induction k with
  | zero => simp [beBytes]
  | succ k ih =>
    have hhead : n / 256 ^ (k + 1) = n / 256 / 256 ^ k := by rw [Nat.div_div_eq_div_mul, ← pow_succ']
    rw [beBytes, ih, hhead]
    rfl

/-- Bytes are written back as they were read. -/
theorem beBytes_beVal (bs : List Byte) : beBytes bs.length (beVal bs) = bs := by
  induction bs using List.reverseRecOn with
  | nil => rfl
  | append_singleton bs b ih =>
    have hb := b.isLt
    have hquot : (beVal bs * 256 + b.toNat) / 256 = beVal bs := by omega
    have hrem : BitVec.ofNat 8 (beVal bs * 256 + b.toNat) = b := by
      apply BitVec.eq_of_toNat_eq
      rw [BitVec.toNat_ofNat]
      omega
    rw [List.length_append, List.length_singleton, beBytes_succ, beVal_append_singleton, hquot, hrem, ih]

theorem u1_toNat (b : Byte) : u1 b.toNat = [b] := by
  rw [u1_eq, BitVec.ofNat_toNat, BitVec.setWidth_eq]

/-! ### Codes (chapter 11) -/

theorem instOf_eq_some_iff {b : Byte} {i : InstNo} : instOf b = some i ↔ b.toNat = i.val := by
  unfold instOf
  split
  case isTrue hlt => rw [Option.some_inj, Fin.ext_iff]
  case isFalse hge => exact iff_of_false nofun (by omega)

theorem slotOf_isSome (b : Byte) : (slotOf b).isSome = true ↔ b.toNat < 64 := by
  unfold slotOf
  split <;> simp [*]

theorem CueAction.ofCode_eq_some_iff {b : Byte} {act : CueAction} : CueAction.ofCode b = some act ↔ b.toNat = act.code := by
  constructor
  · unfold CueAction.ofCode
    split <;> rintro ⟨⟩ <;> assumption
  · intro h
    rw [CueAction.ofCode, h]
    cases act <;> rfl

theorem CueAction.exists_code_iff {n : Nat} : (∃ act : CueAction, n = act.code) ↔ 1 ≤ n ∧ n ≤ 7 := by
  constructor
  · rintro ⟨act, rfl⟩
    cases act <;> decide
  · rintro ⟨hlo, hhi⟩
    interval_cases n
    exacts [⟨.load, rfl⟩, ⟨.start, rfl⟩, ⟨.stopSpill, rfl⟩, ⟨.stopCut, rfl⟩, ⟨.hold, rfl⟩, ⟨.unhold, rfl⟩, ⟨.set, rfl⟩]

theorem CueAction.eq_load_iff {b : Byte} {act : CueAction} (h : b.toNat = act.code) : act = .load ↔ b = 1 := by
  rw [← BitVec.toNat_inj, h]
  cases act <;> decide

theorem CueAction.eq_set_iff {b : Byte} {act : CueAction} (h : b.toNat = act.code) : act = .set ↔ b = 7 := by
  rw [← BitVec.toNat_inj, h]
  cases act <;> decide

theorem CueAction.getElem_code_sub_one (act : CueAction) :
    [CueAction.load, .start, .stopSpill, .stopCut, .hold, .unhold, .set][act.code - 1]? = some act := by
  cases act <;> rfl

/-- The code of an identifier (chapter 11, identifier table). -/
def Ident.code : Ident → Nat
  | .inGain => 0 | .outGain => 1 | .glide => 2 | .tapGain => 3 | .tapSource => 4 | .tapFixed => 5 | .tapTicks => 6
  | .tapLfo => 7 | .tapDepth => 8 | .tapDamp => 9 | .lfoRate => 10 | .lfoShape => 11 | .lfoPhase => 12 | .tailFloor => 13
  | .tailQuiet => 14 | .spillLimit => 15 | .routeInA => 16 | .routeInB => 17 | .routeOutA => 18 | .routeOutB => 19

theorem Ident.ofCode_eq_some_iff {b : Byte} {d : Ident} : Ident.ofCode b = some d ↔ b.toNat = d.code := by
  constructor
  · unfold Ident.ofCode
    split <;> rintro ⟨⟩ <;> assumption
  · intro h
    rw [Ident.ofCode, h]
    cases d <;> rfl

theorem Ident.code_lt (d : Ident) : d.code < 20 := by
  cases d <;> decide

theorem Ident.ofCode_eq_none {b : Byte} (h : Ident.ofCode b = none) : 20 ≤ b.toNat := by
  unfold Ident.ofCode at h
  split at h
  case h_21 =>
    simp only [imp_false] at *
    omega
  all_goals cases h

theorem Ident.ofTap_iff (d : Ident) : d.ofTap = true ↔ 3 ≤ d.code ∧ d.code ≤ 9 := by
  cases d <;> decide

theorem Ident.ofLfo_iff (d : Ident) : d.ofLfo = true ↔ 10 ≤ d.code ∧ d.code ≤ 12 := by
  cases d <;> decide

/-! ### Domains (R87, R119) -/

/-- The domains of the fields of a SET (R87): the identifier, the index of a tap or of an LFO, and a code or a route. -/
def SetDomain (ident index : Byte) (value : Nat) : Prop :=
  ident.toNat < 20 ∧ (3 ≤ ident.toNat → ident.toNat ≤ 9 → index.toNat < 32) ∧
    (10 ≤ ident.toNat → ident.toNat ≤ 12 → index.toNat < 2) ∧
    (ident = 4 ∨ ident = 11 → value ≤ 1) ∧ (ident = 7 → value ≤ 2) ∧
    (16 ≤ ident.toNat → ident.toNat ≤ 19 → value ≤ 31 ∨ value = 255)

/-- The domains of the fields of a CUE_ADD, of which LOAD uses the slot and SET the last three (R119). -/
def CueDomain (action inst slot ident index : Byte) (value : Nat) : Prop :=
  1 ≤ action.toNat ∧ action.toNat ≤ 7 ∧ inst.toNat < 24 ∧ (action = 1 → slot.toNat < 64) ∧
    (action = 7 → SetDomain ident index value)

theorem Ident.indexOk_iff (d : Ident) (index : Byte) :
    d.indexOk index = true ↔ (3 ≤ d.code → d.code ≤ 9 → index.toNat < 32) ∧
      (10 ≤ d.code → d.code ≤ 12 → index.toNat < 2) := by
  rw [← and_imp, ← and_imp, ← Ident.ofTap_iff, ← Ident.ofLfo_iff]
  simp [Ident.indexOk, imp_iff_not_or]

/-- A signed word lies between 0 and a small bound where the unsigned one is at most the bound. -/
theorem toInt_between_iff {w : BitVec 32} {m : Int} (hm : m < 2147483648) :
    0 ≤ w.toInt ∧ w.toInt ≤ m ↔ (w.toNat : Int) ≤ m := by
  have hw := w.isLt
  rw [BitVec.toInt_eq_toNat_cond]
  split <;> omega

theorem toInt_eq_255_iff {w : BitVec 32} : w.toInt = 255 ↔ w.toNat = 255 := by
  have hw := w.isLt
  rw [BitVec.toInt_eq_toNat_cond]
  split <;> omega

theorem Ident.valueOk_iff (d : Ident) (w : BitVec 32) :
    d.valueOk w.toInt = true ↔ (d.code = 4 ∨ d.code = 11 → w.toNat ≤ 1) ∧ (d.code = 7 → w.toNat ≤ 2) ∧
      (16 ≤ d.code → d.code ≤ 19 → w.toNat ≤ 31 ∨ w.toNat = 255) := by
  cases d <;> simp [Ident.valueOk, Ident.code, toInt_between_iff, toInt_eq_255_iff]

section
variable {e : CueEntry}

/-- SET entries: the domains of R87, over the value read as unsigned. -/
theorem CueEntry.domainOk_of_set (hset : e.action = .set) :
    e.domainOk = true ↔ SetDomain e.ident e.index e.value.toNat := by
  simp only [CueEntry.domainOk, hset, SetDomain]
  cases hcode : Ident.ofCode e.ident with
  | none =>
    have hge := Ident.ofCode_eq_none hcode
    simp [hge.not_gt]
  | some d =>
    have hident := Ident.ofCode_eq_some_iff.1 hcode
    have hlt := d.code_lt
    simp [Ident.indexOk_iff, Ident.valueOk_iff, ← BitVec.toNat_inj, hident, hlt, and_assoc]

theorem CueEntry.domainOk_iff (e : CueEntry) :
    e.domainOk = true ↔ (e.action = .load → e.slot.toNat < 64) ∧
      (e.action = .set → SetDomain e.ident e.index e.value.toNat) := by
  cases haction : e.action
  case set => simp [CueEntry.domainOk_of_set haction]
  case load => simp [CueEntry.domainOk, haction, slotOf_isSome]
  all_goals simp [CueEntry.domainOk, haction]

end

/-! ### The entry of a CUE_ADD body (R119, chapter 11) -/

section
variable {a i k d x : Byte} {v : List Byte} {e : CueEntry}

/-- The entry that a body names: its fields as carried, where they lie in their domains. -/
theorem cueEntryOf_eq_some_iff (hv : v.length = 4) :
    cueEntryOf (a :: i :: k :: d :: x :: v) = some e ↔
      a.toNat = e.action.code ∧ i.toNat = e.inst.val ∧ e.slot = k ∧ e.ident = d ∧ e.index = x ∧
        e.value = BitVec.ofNat 32 (beVal v) ∧ e.domainOk = true := by
  have hvalue : uAt 4 (a :: i :: k :: d :: x :: v) 5 = beVal v := by simp [uAt, List.take_of_length_le hv.le]
  rw [← CueAction.ofCode_eq_some_iff, ← instOf_eq_some_iff]
  unfold cueEntryOf
  rw [hvalue]
  simp only [byteAt, List.getD_cons_zero, List.getD_cons_succ]
  constructor
  · intro h
    split at h
    case h_1 act n hact hinst =>
      split at h
      case isTrue hok =>
        cases h
        exact ⟨hact, hinst, rfl, rfl, rfl, rfl, hok⟩
      case isFalse => cases h
    case h_2 => cases h
  · rintro ⟨hact, hinst, rfl, rfl, rfl, hword, hok⟩
    simp only [hact, hinst, ← hword, hok, if_true]

/-- The value field of an entry is the value of its four bytes. -/
theorem toNat_ofNat_beVal (hv : v.length = 4) : (BitVec.ofNat 32 (beVal v)).toNat = beVal v := by
  rw [BitVec.toNat_ofNat, Nat.mod_eq_of_lt]
  simpa [hv] using beVal_lt v

/-- The entry is spelled by the bytes that carried it. -/
theorem CueEntry.bytes_of_cueEntryOf (hv : v.length = 4) (he : cueEntryOf (a :: i :: k :: d :: x :: v) = some e) :
    e.bytes = a :: i :: k :: d :: x :: v := by
  obtain ⟨haction, hinst, hslot, hident, hindex, hvalue, -⟩ := (cueEntryOf_eq_some_iff hv).1 he
  have hbytes : u4 (beVal v) = v := by rw [u4, ← hv, beBytes_beVal]
  rw [CueEntry.bytes, ← haction, ← hinst, hslot, hident, hindex, hvalue, toNat_ofNat_beVal hv, hbytes,
    u1_toNat, u1_toNat]
  rfl

/-- A body names an entry exactly when the fields that its action uses lie in their domains. -/
theorem exists_cueEntryOf_iff (hv : v.length = 4) :
    (∃ e, cueEntryOf (a :: i :: k :: d :: x :: v) = some e) ↔ CueDomain a i k d x (beVal v) := by
  simp only [cueEntryOf_eq_some_iff hv]
  constructor
  · rintro ⟨e, haction, hinst, rfl, rfl, rfl, hvalue, hok⟩
    rw [CueEntry.domainOk_iff, CueAction.eq_load_iff haction, CueAction.eq_set_iff haction, hvalue,
      toNat_ofNat_beVal hv] at hok
    obtain ⟨hlo, hhi⟩ := CueAction.exists_code_iff.1 ⟨_, haction⟩
    exact ⟨hlo, hhi, hinst ▸ e.inst.isLt, hok⟩
  · rintro ⟨hlo, hhi, hinst, hok⟩
    obtain ⟨act, haction⟩ := CueAction.exists_code_iff.2 ⟨hlo, hhi⟩
    refine ⟨⟨act, ⟨i.toNat, hinst⟩, k, d, x, BitVec.ofNat 32 (beVal v)⟩, haction, rfl, rfl, rfl, rfl, rfl, ?_⟩
    rwa [CueEntry.domainOk_iff, CueAction.eq_load_iff haction, CueAction.eq_set_iff haction, toNat_ofNat_beVal hv]

end

/-! ### CUE_ADD (R119) -/

theorem exec_cueAdd (s : State) : exec .cueAdd s = .next (serveKind .cueAdd ownCueAdd s) := rfl

section
variable {s : State} {f : Frame} {rest : List Frame} {e : CueEntry}

theorem ownCueAdd_badArg (h : cueEntryOf f.body = none) :
    ownCueAdd f (s.takenInFlight rest) = s.replied f rest .badArg [] := by
  rw [ownCueAdd, h]
  rfl

theorem ownCueAdd_full (h : cueEntryOf f.body = some e) (hlen : 32 ≤ s.cue.list.length) :
    ownCueAdd f (s.takenInFlight rest) = s.replied f rest .full [] := by
  have hfull : ¬ s.cue.list.length < cueCap := hlen.not_gt
  simp only [ownCueAdd, h, State.takenInFlight_cue, hfull, if_false]
  rfl

theorem ownCueAdd_appends (h : cueEntryOf f.body = some e) (hlen : s.cue.list.length < 32) :
    ownCueAdd f (s.takenInFlight rest) = State.replied f rest .ok
      [BitVec.ofNat 8 s.cue.list.length, BitVec.ofNat 8 (s.cue.list.length + 1)]
      { s with cue := { s.cue with list := s.cue.list ++ [e] } } := by
  have hroom : s.cue.list.length < cueCap := hlen
  simp only [ownCueAdd, h, State.takenInFlight_cue, hroom, if_true, u1_eq]
  rfl

end

/-- Settles O29: the checks of the request handler, then those of `ownCueAdd` in their order, over the bodies that name an entry. -/
theorem cueAddChecksAndAppends : Obligations.CueAddChecksAndAppends := by
  intro s f rest a i k d x v htake hkind hbody hv
  have hrow : Kind.ofByte f.kind = some .cueAdd := by rw [hkind]; rfl
  have hlen : Kind.cueAdd.lengthOk f.body = true := by simp [Kind.lengthOk, hbody, hv]
  have hgood : (∃ e, cueEntryOf f.body = some e) ↔ CueDomain a i k d x (beVal v) := by
    rw [hbody, exists_cueEntryOf_iff hv]
  have hserve (hrun : s.run.isSome = true) : exec .cueAdd s = .next (ownCueAdd f (s.takenInFlight rest)) := by
    rw [exec_cueAdd, serveKind_of_run htake hrun hrow hlen (by decide)]
  refine ⟨fun hrun => ?_, fun hrun hbad => ?_, fun hrun hdomain hfull => ?_, fun hrun hdomain hroom => ?_⟩
  · rw [exec_cueAdd, serveKind_of_setup htake hrun hrow hlen rfl (by decide)]
  · have hnone : cueEntryOf f.body = none := Option.eq_none_iff_forall_ne_some.2 fun e he => hbad (hgood.1 ⟨e, he⟩)
    rw [hserve hrun, ownCueAdd_badArg hnone]
  · obtain ⟨e, he⟩ := hgood.2 hdomain
    rw [hserve hrun, ownCueAdd_full he hfull]
  · obtain ⟨e, he⟩ := hgood.2 hdomain
    have hentry : cueEntryOf (a :: i :: k :: d :: x :: v) = some e := hbody ▸ he
    obtain ⟨haction, hinst, hslot, hident, hindex, hvalue, -⟩ := (cueEntryOf_eq_some_iff hv).1 hentry
    refine ⟨e, ?_, ?_, hinst.symm, hslot, hident, hindex, hvalue, ?_⟩
    · rw [hbody, CueEntry.bytes_of_cueEntryOf hv hentry]
    · rw [haction, CueAction.getElem_code_sub_one]
    · rw [hserve hrun, ownCueAdd_appends he hroom]

/-! ### CUE_CLEAR, CUE_LIST and GO (R120 to R122) -/

theorem exec_cueClear (s : State) : exec .cueClear s = .next (serveKind .cueClear ownCueClear s) := rfl

theorem exec_cueList (s : State) : exec .cueList s = .next (serveKind .cueList ownCueList s) := rfl

theorem exec_go (s : State) : exec .go s = .next (serveKind .go ownGo s) := rfl

section
variable {s : State} {f : Frame} {rest : List Frame}

theorem ownCueClear_takenInFlight :
    ownCueClear f (s.takenInFlight rest) = State.replied f rest .ok [BitVec.ofNat 8 s.cue.list.length]
      { s with cue := { s.cue with list := [] } } := by
  rw [ownCueClear, u1_eq]
  rfl

theorem boolByte_eq (b : Bool) : boolByte b = [if b then 1 else 0] := by
  cases b <;> rfl

theorem ownCueList_takenInFlight :
    ownCueList f (s.takenInFlight rest) = s.replied f rest .ok
      ([if s.cue.pendingFlag then 1 else 0, BitVec.ofNat 8 s.cue.fired.length, BitVec.ofNat 8 s.cue.list.length]
        ++ s.cue.list.flatMap CueEntry.bytes) := by
  rw [ownCueList, boolByte_eq, u1_eq, u1_eq]
  rfl

theorem ownGo_busy (hpending : s.cue.pendingFlag = true) :
    ownGo f (s.takenInFlight rest) = s.replied f rest .busy [] := by
  rw [ownGo, State.takenInFlight_cue, if_pos hpending]
  rfl

theorem ownGo_empty (hpending : s.cue.pendingFlag = false) (hlist : s.cue.list = []) :
    ownGo f (s.takenInFlight rest) = s.replied f rest .empty [] := by
  simp only [ownGo, State.takenInFlight_cue, hpending, hlist, List.isEmpty_nil, Bool.false_eq_true, if_false, if_true]
  rfl

theorem ownGo_fires (hpending : s.cue.pendingFlag = false) (hlist : s.cue.list ≠ []) :
    ownGo f (s.takenInFlight rest) = State.takenInFlight rest { s with cue := s.cue.fire (.request f.tag) } := by
  simp only [ownGo, State.takenInFlight_cue, hpending, List.isEmpty_iff, hlist, Bool.false_eq_true, if_false]
  rfl

end

/-! ### The GO pin (R123) -/

theorem exec_goPin (s : State) : exec .goPin s = .next s.goPin := rfl

theorem State.goPin_fires {s : State} (hrun : s.run.isSome = true) (hpin : s.resetPin = false)
    (hpending : s.cue.pendingFlag = false) (hlist : s.cue.list ≠ []) : s.goPin = { s with cue := s.cue.fire .pin } := by
  simp [State.goPin, State.inRun, hrun, hpin, hpending, hlist]

theorem State.goPin_ignored {s : State}
    (h : s.run = none ∨ s.resetPin = true ∨ s.cue.pendingFlag = true ∨ s.cue.list = []) : s.goPin = s := by
  rcases h with h | h | h | h <;> simp [State.goPin, State.inRun, h]

/-- Settles O30: each request is refused in SETUP and is its owner's work in RUN; the pin edge fires or is ignored. -/
theorem cueListClearAndGo : Obligations.CueListClearAndGo := by
  refine ⟨fun s f rest htake hrun hbody => ⟨fun hkind => ?_, fun hkind => ?_, fun hkind => ?_⟩,
    fun s f rest htake hrun hbody => ⟨fun hkind => ?_, fun hkind => ?_, fun hkind => ?_⟩,
    fun s => ⟨fun hrun hpin hpending hlist => ?_, fun h => ?_⟩⟩
  · rw [exec_cueClear, serveKind_of_setup htake hrun (by rw [hkind]; rfl) (by rw [hbody]; rfl) rfl (by decide)]
  · rw [exec_cueList, serveKind_of_setup htake hrun (by rw [hkind]; rfl) (by rw [hbody]; rfl) rfl (by decide)]
  · rw [exec_go, serveKind_of_setup htake hrun (by rw [hkind]; rfl) (by rw [hbody]; rfl) rfl (by decide)]
  · rw [exec_cueClear, serveKind_of_run htake hrun (by rw [hkind]; rfl) (by rw [hbody]; rfl) (by decide),
      ownCueClear_takenInFlight]
  · rw [exec_cueList, serveKind_of_run htake hrun (by rw [hkind]; rfl) (by rw [hbody]; rfl) (by decide),
      ownCueList_takenInFlight]
  · rw [exec_go, serveKind_of_run htake hrun (by rw [hkind]; rfl) (by rw [hbody]; rfl) (by decide)]
    refine ⟨fun hpending => ?_, fun hpending hlist => ?_, fun hpending hlist => ?_⟩
    · rw [ownGo_busy hpending]
    · rw [ownGo_empty hpending hlist]
    · rw [ownGo_fires hpending hlist]
      rfl
  · rw [exec_goPin, State.goPin_fires hrun hpin hpending hlist]
    rfl
  · rw [exec_goPin, State.goPin_ignored h]

end Sys2Proof.Machine
end

section
/-! STORE and FETCH (R137 to R142): a record part that passes its checks has the length of its counts and spells a program, so STORE keeps
its bytes; FETCH answers with the bytes the slot keeps. A LOAD entry that is due can put the application event before the STORE, and that
event leaves the inbox, the pin and the library, so the STORE is still taken wherever its reply has found a place. -/

namespace Sys2Proof.Machine

/-! ### Checks of a record part (R135, R138 to R140) -/

theorem firstFault_eq_none_iff {k : Nat} {checks : List Bool} : firstFault k checks = none ↔ ∀ c ∈ checks, c = true := by
  induction checks generalizing k with
  | nil => simp [firstFault]
  | cons c checks ih => cases c <;> simp [firstFault, ih]

/-- A record part passes where its header, its length and its entries pass. -/
theorem recordFault_eq_none_iff {r : List Byte} :
    recordFault r = none ↔
      (∀ c ∈ headerChecks r, c = true) ∧ r.length = recordLength (u1At r 16) (u1At r 17) ∧
        ∀ c ∈ entryChecks r, c = true := by
  rw [← firstFault_eq_none_iff (k := 0), ← firstFault_eq_none_iff (k := 9), recordFault]
  cases firstFault 0 (headerChecks r) with
  | none =>
    by_cases hlen : r.length = recordLength (u1At r 16) (u1At r 17) <;> simp [hlen]
  | some k => simp

/-! ### The program of a record part that passes (R204) -/

theorem allSome_isSome_iff {α : Type} {l : List (Option α)} : (allSome l).isSome = true ↔ ∀ x ∈ l, x.isSome = true := by
  induction l with
  | nil => simp [allSome]
  | cons x l ih =>
    rw [List.forall_mem_cons, ← ih]
    cases x <;> cases h : allSome l <;> simp [allSome, h]

section
variable {r : List Byte} {nl nt o : Nat}

theorem lineProgAt_isSome (h : ∀ c ∈ lineChecks r o, c = true) : (lineProgAt r o).isSome = true := by
  simp only [lineChecks, List.forall_mem_cons] at h
  obtain ⟨hplacement, -, hfeed, -⟩ := h
  obtain ⟨p, hp⟩ := Option.isSome_iff_exists.1 hplacement
  obtain ⟨f, hf⟩ := Option.isSome_iff_exists.1 hfeed
  simp [lineProgAt, hp, hf]

theorem destOf_isSome {n : Nat} (h : destOk nl n = true) : (destOf n).isSome = true := by
  cases hd : destOf n with
  | none => simp [destOk, hd] at h
  | some d => rfl

theorem tapProgAt_isSome (h : ∀ c ∈ tapChecks r nl o, c = true) : (tapProgAt r o).isSome = true := by
  simp only [tapChecks, List.forall_mem_cons] at h
  obtain ⟨-, hsource, -, -, hlfo, -, -, -, hdest, hhold, -⟩ := h
  obtain ⟨s, hs⟩ := Option.isSome_iff_exists.1 hsource
  obtain ⟨l, hl⟩ := Option.isSome_iff_exists.1 hlfo
  obtain ⟨d, hd⟩ := Option.isSome_iff_exists.1 (destOf_isSome hdest)
  obtain ⟨b, hb⟩ := Option.isSome_iff_exists.1 hhold
  simp [tapProgAt, hs, hl, hd, hb]

theorem lfoProgAt_isSome (h : ∀ c ∈ lfoChecks r o, c = true) : (lfoProgAt r o).isSome = true := by
  simp only [lfoChecks, List.forall_mem_cons] at h
  obtain ⟨-, hshape, -⟩ := h
  obtain ⟨s, hs⟩ := Option.isSome_iff_exists.1 hshape
  simp [lfoProgAt, hs]

/-- The entries pass where those of every line, every tap and both LFOs do. -/
theorem forall_mem_entryChecks_iff :
    (∀ c ∈ entryChecks r, c = true) ↔
      (∀ j < u1At r 16, ∀ c ∈ lineChecks r (lineOffset j), c = true) ∧
      (∀ t < u1At r 17, ∀ c ∈ tapChecks r (u1At r 16) (tapOffset (u1At r 16) t), c = true) ∧
      (∀ c ∈ lfoChecks r (lfoOffset (u1At r 16) (u1At r 17) 0), c = true) ∧
      ∀ c ∈ lfoChecks r (lfoOffset (u1At r 16) (u1At r 17) 1), c = true := by
  simp only [entryChecks, List.forall_mem_append, List.forall_mem_flatMap, List.mem_range, and_assoc]

/-- Entries that pass spell a program. -/
theorem exists_programOf (h : ∀ c ∈ entryChecks r, c = true) : ∃ p, programOf r = some p := by
  obtain ⟨hlines, htaps, hlfo0, hlfo1⟩ := forall_mem_entryChecks_iff.1 h
  have hls : (allSome ((List.range (u1At r 16)).map fun j => lineProgAt r (lineOffset j))).isSome = true := by
    simpa [allSome_isSome_iff] using fun j hj => lineProgAt_isSome (hlines j hj)
  have hts : (allSome ((List.range (u1At r 17)).map fun t => tapProgAt r (tapOffset (u1At r 16) t))).isSome = true := by
    simpa [allSome_isSome_iff] using fun t ht => tapProgAt_isSome (htaps t ht)
  obtain ⟨ls, els⟩ := Option.isSome_iff_exists.1 hls
  obtain ⟨ts, ets⟩ := Option.isSome_iff_exists.1 hts
  obtain ⟨l0, el0⟩ := Option.isSome_iff_exists.1 (lfoProgAt_isSome hlfo0)
  obtain ⟨l1, el1⟩ := Option.isSome_iff_exists.1 (lfoProgAt_isSome hlfo1)
  simp [programOf, els, ets, el0, el1]

theorem length_of_recordFault_eq_none (h : recordFault r = none) :
    r.length = 32 + 4 * u1At r 16 + 12 * u1At r 17 + 16 :=
  (recordFault_eq_none_iff.1 h).2.1

/-- What STORE keeps of a record part that passes: its bytes, with the program they spell. -/
theorem exists_checkRecord_ok (h : recordFault r = none) : ∃ p, checkRecord r = .ok ⟨r, p⟩ := by
  obtain ⟨-, -, hentries⟩ := recordFault_eq_none_iff.1 h
  obtain ⟨p, hp⟩ := exists_programOf hentries
  exact ⟨p, by simp [checkRecord, h, hp]⟩

end

/-! ### Requests that both part states serve (R189) -/

/-- A frame of a row's own kind and of the right length, of a kind served in SETUP, reaches the row's owner in either part state. -/
theorem serveKind_of_servedInSetup {k : Kind} {owner : Frame → State → State} {s : State} {f : Frame} {rest : List Frame}
    (htake : CanTake s f rest) (hkind : Kind.ofByte f.kind = some k) (hlen : k.lengthOk f.body = true)
    (hserved : k.servedInSetup = true) (hk : k ≠ .setup) : serveKind k owner s = owner f (s.takenInFlight rest) :=
  serve_owner htake hkind rfl (State.precheck_eq_none hlen (fun _ => hserved) fun _ _ => hk)

/-- Where no place of the outbox is free, no request is taken. -/
theorem serveKind_of_no_place {k : Kind} {owner : Frame → State → State} {s : State}
    (h : ¬ s.link.sendOrder.length + s.link.reserved < 4) : serveKind k owner s = s := by
  rcases serve_cases k (fun _ => true) owner s with hsame | ⟨f, rest, htake, -⟩
  · exact hsame
  · exact absurd htake.place h

/-! ### FETCH (R142) -/

theorem exec_fetch (s : State) : exec .fetch s = .next (serveKind .fetch ownFetch s) := rfl

section
variable {s : State} {f : Frame} {rest : List Frame} {k : SlotNo}

/-- A FETCH of a slot that exists is its owner's work, in SETUP and in RUN. -/
theorem exec_fetch_of_canTake (htake : CanTake s f rest) (hkind : f.kind = 0x11) (hbody : f.body = [slotByte k]) :
    exec .fetch s = .next (ownFetch f (s.takenInFlight rest)) := by
  rw [exec_fetch, serveKind_of_servedInSetup htake (by rw [hkind]; rfl) (by rw [hbody]; rfl) rfl (by decide)]

theorem ownFetch_of_record {r : PresetRecord} (hbody : f.body = [slotByte k]) (hrec : (s.libSlot k).record = some r) :
    ownFetch f (s.takenInFlight rest) = s.replied f rest .ok (slotByte k :: r.bytes) := by
  have hbyte : byteAt f.body 0 = slotByte k := by rw [hbody]; rfl
  simp only [ownFetch, hbyte, slotOf_slotByte, State.takenInFlight_libSlot, hrec]
  rfl

theorem ownFetch_of_no_record (hbody : f.body = [slotByte k]) (hrec : (s.libSlot k).record = none) :
    ownFetch f (s.takenInFlight rest) = s.replied f rest .empty [slotByte k] := by
  have hbyte : byteAt f.body 0 = slotByte k := by rw [hbody]; rfl
  simp only [ownFetch, hbyte, slotOf_slotByte, State.takenInFlight_libSlot, hrec]
  rfl

theorem exec_fetch_of_record {r : PresetRecord} (htake : CanTake s f rest) (hkind : f.kind = 0x11)
    (hbody : f.body = [slotByte k]) (hrec : (s.libSlot k).record = some r) :
    exec .fetch s = .next (s.replied f rest .ok (slotByte k :: r.bytes)) := by
  rw [exec_fetch_of_canTake htake hkind hbody, ownFetch_of_record hbody hrec]

theorem exec_fetch_of_no_record (htake : CanTake s f rest) (hkind : f.kind = 0x11) (hbody : f.body = [slotByte k])
    (hrec : (s.libSlot k).record = none) : exec .fetch s = .next (s.replied f rest .empty [slotByte k]) := by
  rw [exec_fetch_of_canTake htake hkind hbody, ownFetch_of_no_record hbody hrec]

/-! ### STORE of a record that is accepted (R137, R141) -/

theorem exec_store (s : State) : exec .store s = .next (s.libraryRequest (serveKind .store ownStore)) := rfl

theorem ownStore_of_accepted {r : List Byte} {x : PresetRecord} (hbody : f.body = slotByte k :: r)
    (hopen : (s.libSlot k).guarded = false) (hrec : checkRecord r = .ok x) :
    ownStore f (s.takenInFlight rest) = State.replied f rest .ok [slotByte k] (s.setLibSlot k ⟨some x, false⟩) := by
  have hbyte : byteAt f.body 0 = slotByte k := by rw [hbody]; rfl
  have hdrop : f.body.drop 1 = r := by rw [hbody]; rfl
  simp only [ownStore, hbyte, slotOf_slotByte, State.takenInFlight_libSlot, hopen, hdrop, hrec, Bool.false_eq_true, if_false]
  rfl

/-- A STORE of a record that passes, into a slot that is not protected, puts the record into the slot. -/
theorem serveKind_store_of_accepted {r : List Byte} {x : PresetRecord} (htake : CanTake s f rest) (hkind : f.kind = 0x10)
    (hbody : f.body = slotByte k :: r) (hmin : 32 ≤ r.length) (hmax : r.length ≤ 464)
    (hopen : (s.libSlot k).guarded = false) (hrec : checkRecord r = .ok x) :
    serveKind .store ownStore s = State.replied f rest .ok [slotByte k] (s.setLibSlot k ⟨some x, false⟩) := by
  have hlen : Kind.store.lengthOk f.body = true := by
    simp only [Kind.lengthOk, hbody, List.length_cons, decide_eq_true_eq]
    omega
  rw [serveKind_of_servedInSetup htake (by rw [hkind]; rfl) hlen rfl (by decide), ownStore_of_accepted hbody hopen hrec]

end

/-! ### What the application event leaves for the request behind it (R129, R166) -/

theorem State.OnlyAborts.inbox {s t : State} (h : s.OnlyAborts t) : t.link.inbox = s.link.inbox := by
  rcases h.link with ⟨hlink, -⟩ | ⟨a, q, -, -, hlink⟩
  · rw [hlink]
  · rw [hlink]
    rfl

@[simp] theorem State.completeCue_resetPin (c : CueCounts) (s : State) : (s.completeCue c).resetPin = s.resetPin := by
  unfold State.completeCue State.answerGo
  split <;> simp

@[simp] theorem State.completeCue_inbox (c : CueCounts) (s : State) : (s.completeCue c).link.inbox = s.link.inbox := by
  unfold State.completeCue State.answerGo
  split <;> simp

@[simp] theorem State.applyCue_resetPin (s : State) : s.applyCue.resetPin = s.resetPin := by
  unfold State.applyCue
  split
  · simp [(applyEntries_onlyAborts s.cue.fired 0 CueCounts.zero s).resetPin]
  · rfl

@[simp] theorem State.applyCue_inbox (s : State) : s.applyCue.link.inbox = s.link.inbox := by
  unfold State.applyCue
  split
  · simp [(applyEntries_onlyAborts s.cue.fired 0 CueCounts.zero s).inbox]
  · rfl

/-- A request that changes library slots is taken in a state with the library, the inbox and the pin of the state it is asked in. -/
theorem State.exists_libraryRequest_eq (taken : State → State) (s : State) :
    ∃ u : State, s.libraryRequest taken = taken u ∧ u.library = s.library ∧ u.link.inbox = s.link.inbox ∧
      u.resetPin = s.resetPin := by
  rcases State.libraryRequest_cases taken s with ⟨-, hreq⟩ | ⟨-, hreq⟩
  · exact ⟨s.applyCue, hreq, s.applyCue_library, s.applyCue_inbox, s.applyCue_resetPin⟩
  · exact ⟨s, hreq, rfl, rfl, rfl⟩

/-! ### STORE, then FETCH -/

/-- After an accepted STORE that leaves a place of the outbox free, the slot holds the record and the next frame can be taken. Where the
application event has filled the outbox before the STORE, no place is free. -/
theorem exec_store_of_accepted {s t : State} {f : Frame} {rest : List Frame} {k : SlotNo} {r : List Byte}
    {x : PresetRecord} (htake : CanTake s f rest) (hkind : f.kind = 0x10) (hbody : f.body = slotByte k :: r)
    (hmin : 32 ≤ r.length) (hmax : r.length ≤ 464) (hopen : (s.libSlot k).guarded = false)
    (hrec : checkRecord r = .ok x) (hexec : exec .store s = .next t)
    (hplace : t.link.sendOrder.length + t.link.reserved < 4) :
    (t.libSlot k).record = some x ∧ t.resetPin = false ∧ t.link.inbox = rest := by
  obtain ⟨u, hreq, hlib, hinbox, hpin⟩ := s.exists_libraryRequest_eq (serveKind .store ownStore)
  have ht : serveKind .store ownStore u = t := by
    rw [exec_store, hreq] at hexec
    injection hexec
  have huplace : u.link.sendOrder.length + u.link.reserved < 4 := by
    by_contra hfull
    rw [serveKind_of_no_place hfull] at ht
    exact hfull (ht ▸ hplace)
  have hutake : CanTake u f rest := ⟨hpin.trans htake.released, hinbox.trans htake.head, huplace⟩
  have huopen : (u.libSlot k).guarded = false := by rwa [State.libSlot, hlib]
  rw [serveKind_store_of_accepted hutake hkind hbody hmin hmax huopen hrec] at ht
  subst ht
  exact ⟨congrArg LibSlot.record (u.setLibSlot_libSlot_self k _), hutake.released, rfl⟩

/-- Settles O16: FETCH is its owner's work in either part state, and what an accepted STORE keeps is the record part it carried. -/
theorem fetchReturnsTheStoredRecord : Obligations.FetchReturnsTheStoredRecord := by
  refine ⟨fun s f rest k htake hkind hbody => ⟨fun r hrec => exec_fetch_of_record htake hkind hbody hrec,
    fun hrec => exec_fetch_of_no_record htake hkind hbody hrec⟩, ?_⟩
  intro s t f g rest k r htake hfkind hfbody hmin hmax hfault hopen hexec hplace hgkind hgbody
  obtain ⟨p, hrec⟩ := exists_checkRecord_ok hfault
  obtain ⟨hslot, hpin, hinbox⟩ := exec_store_of_accepted htake hfkind hfbody hmin hmax hopen hrec hexec hplace
  exact ⟨length_of_recordFault_eq_none hfault, exec_fetch_of_record ⟨hpin, hinbox, hplace⟩ hgkind hgbody hslot⟩

end Sys2Proof.Machine
end

section
/-! Line access (R161, R162): a LINE_READ and a LINE_WRITE differ in what they carry behind their fields, so each is shown to be a request
of its fields, and the decision of R161 is proved once for both. -/

namespace Sys2Proof.Machine

/-! ### Fields read back (R202) -/

theorem beVal_beBytes (k n : Nat) : beVal (beBytes k n) = n % 256 ^ k := by
  induction k generalizing n with
  | zero => simp [beBytes, beVal, Nat.mod_one]
  | succ k ih =>
    have hlast : (BitVec.ofNat 8 n).toNat = n % 256 := BitVec.toNat_ofNat ..
    rw [beBytes_succ, beVal_append_singleton, ih, hlast, pow_succ', Nat.mod_mul, Nat.add_comm, Nat.mul_comm]

/-- A field that stands behind `pre` reads back as the number it was written from. -/
theorem uAt_append_beBytes {k n : Nat} (pre post : List Byte) (hn : n < 256 ^ k) :
    uAt k (pre ++ (beBytes k n ++ post)) pre.length = n := by
  rw [uAt, List.drop_left, List.take_left' (beBytes_length k n), beVal_beBytes, Nat.mod_eq_of_lt hn]

theorem s3At_append_s3 {v : Int} (pre post : List Byte) (hv : sampleOk v) : s3At (pre ++ (s3 v ++ post)) pre.length = v := by
  obtain ⟨hlo, hhi⟩ := hv
  rw [s3At, s3, uAt_append_beBytes pre post (BitVec.isLt _), BitVec.ofNat_toNat, BitVec.setWidth_eq]
  exact BitVec.toInt_ofInt_eq_self (by decide) hlo (by omega)

theorem length_flatMap_s3 (vs : List Int) : (vs.flatMap s3).length = 3 * vs.length := by
  simp [List.length_flatMap, s3, beBytes_length, mul_comm]

/-- Samples that stand behind `pre` read back in their order. -/
theorem map_s3At_flatMap_s3 {vs : List Int} (pre : List Byte) (hvs : ∀ v ∈ vs, sampleOk v) :
    (List.range vs.length).map (fun i => s3At (pre ++ vs.flatMap s3) (pre.length + 3 * i)) = vs := by
  induction vs generalizing pre with
  | nil => rfl
  | cons v vs ih =>
    obtain ⟨hv, hrest⟩ := List.forall_mem_cons.1 hvs
    have htail := ih (pre ++ s3 v) hrest
    rw [List.length_append, s3, beBytes_length, ← s3] at htail
    rw [List.length_cons, List.range_succ_eq_map, List.map_cons, List.map_map, List.flatMap_cons]
    refine congrArg₂ List.cons (s3At_append_s3 pre _ hv) (Eq.trans (List.map_congr_left fun i _ => ?_) htail)
    rw [Function.comp_apply, List.append_assoc, Nat.mul_succ, Nat.add_assoc, Nat.add_comm 3]

/-! ### The fields of a line access (R161, chapter 11) -/

/-- What a request body carries as instance, line, offset and count. -/
structure AccessFields (body : List Byte) (b ln : Byte) (offset count : Nat) : Prop where
  inst_eq   : byteAt body 0 = b
  line_eq   : u1At body 1 = ln.toNat
  offset_eq : uAt 4 body 2 = offset
  count_eq  : uAt 2 body 6 = count

/-- The head of a line access, laid out as chapter 11 gives it. -/
def accessHead (b ln : Byte) (offset count : Nat) : List Byte :=
  [b, ln] ++ beBytes 4 offset ++ beBytes 2 count

section
variable {b ln : Byte} {offset count : Nat}

theorem accessHead_length : (accessHead b ln offset count).length = 8 := by
  simp [accessHead, beBytes_length]

theorem accessFields_accessHead_append (hoffset : offset < 2 ^ 32) (hcount : count < 2 ^ 16) (data : List Byte) :
    AccessFields (accessHead b ln offset count ++ data) b ln offset count where
  inst_eq := rfl
  line_eq := rfl
  offset_eq := by
    simpa [accessHead] using uAt_append_beBytes [b, ln] (beBytes 2 count ++ data) (k := 4) hoffset
  count_eq := by
    simpa [accessHead, beBytes_length] using uAt_append_beBytes ([b, ln] ++ beBytes 4 offset) data (k := 2) hcount

/-- A LINE_WRITE carries its samples behind the head. -/
theorem writeSamples_accessHead_append {vs : List Int} (hlen : vs.length = count) (hvs : ∀ v ∈ vs, sampleOk v) :
    writeSamples (accessHead b ln offset count ++ vs.flatMap s3) count = vs := by
  have h := map_s3At_flatMap_s3 (accessHead b ln offset count) hvs
  rwa [accessHead_length, hlen] at h

/-! ### The decision of R161, in its order -/

/-- The positions of R162, with the word numbers read as integers. -/
theorem accessPositions_eq (l : LineRun) (offset count : Nat) :
    accessPositions l offset count =
      (List.range count).map fun n => (((l.w : Int) - ((offset : Int) + (n : Int))) % (l.len : Int)).toNat := by
  simp [accessPositions, posBack, List.map_eq_flatMap, List.flatMap_assoc]

section
variable {op : List Byte → Nat → AccessOp} {f : Frame} {rest : List Frame} {s : State} {i : InstNo} {y : Running} {l : LineRun}

theorem acceptAccess_of_field_outside (hf : AccessFields f.body b ln offset count)
    (h : 24 ≤ b.toNat ∨ 7 < ln.toNat ∨ offset = 0 ∨ count = 0 ∨ 256 < count) :
    acceptAccess op f (s.takenInFlight rest) = s.replied f rest .badArg [] := by
  simp only [acceptAccess, hf.inst_eq, hf.line_eq, hf.offset_eq, hf.count_eq, accessCap, State.answer_takenInFlight]
  rcases h with hinst | hfields
  · have hnone : instOf b = none := dif_neg (Nat.not_lt.2 hinst)
    rw [hnone]
  · cases instOf b with
    | none => rfl
    | some i => exact if_pos hfields

/-- The fields name instance `i` and lie in their domains. -/
structure AccessFieldsOk (body : List Byte) (i : InstNo) (ln : Byte) (offset count : Nat) : Prop
    extends AccessFields body (instByte i) ln offset count where
  inDomain : ¬ (7 < ln.toNat ∨ offset = 0 ∨ count = 0 ∨ 256 < count)

theorem acceptAccess_of_not_held (hf : AccessFieldsOk f.body i ln offset count) (hstate : (s.inst i).state ≠ .held) :
    acceptAccess op f (s.takenInFlight rest) = s.replied f rest .badState [] := by
  simp only [acceptAccess, hf.inst_eq, hf.line_eq, hf.offset_eq, hf.count_eq, accessCap, instOf_instByte, if_neg hf.inDomain,
    State.takenInFlight_inst, if_pos hstate, State.answer_takenInFlight]

theorem acceptAccess_of_no_line (hf : AccessFieldsOk f.body i ln offset count) (hstate : (s.inst i).state = .held)
    (hrun : (s.inst i).running = some y) (hline : y.lines[ln.toNat]? = none) :
    acceptAccess op f (s.takenInFlight rest) = s.replied f rest .badArg [] := by
  simp only [acceptAccess, hf.inst_eq, hf.line_eq, hf.offset_eq, hf.count_eq, accessCap, instOf_instByte, if_neg hf.inDomain,
    State.takenInFlight_inst, if_neg (not_not.2 hstate), hrun, Option.bind_some, hline, State.answer_takenInFlight]

/-- Where the instance is HELD and the line exists, what is left to decide is what the line holds and whether an access is in flight. -/
theorem acceptAccess_of_line (hf : AccessFieldsOk f.body i ln offset count) (hstate : (s.inst i).state = .held)
    (hrun : (s.inst i).running = some y) (hline : y.lines[ln.toNat]? = some l) :
    acceptAccess op f (s.takenInFlight rest) =
      if min l.f (l.len - 1) < offset + count - 1 then s.replied f rest .badArg []
      else if s.access.isSome then s.replied f rest .busy []
      else State.takenInFlight rest
        { s with access := some { tag := f.tag, op := op f.body count, inst := i, line := ln.toNat, pool := l.pool,
                                  positions := accessPositions l offset count, served := 0, got := [], bad := 0,
                                  frameSeen := false } } := by
  simp only [acceptAccess, hf.inst_eq, hf.line_eq, hf.offset_eq, hf.count_eq, accessCap, instOf_instByte, if_neg hf.inDomain,
    State.takenInFlight_inst, if_neg (not_not.2 hstate), hrun, Option.bind_some, hline, State.answer_takenInFlight]
  rfl

end

/-! ### The two rows -/

/-- The request `f` is of row `c`, whose owner reads the operation by `op`; it has the length of its kind, and carries the fields and the
operation `carried`. -/
structure AccessRequest (c : Instr) (f : Frame) (k : Kind) (op : List Byte → Nat → AccessOp) (b ln : Byte)
    (offset count : Nat) (carried : AccessOp) : Prop where
  row      : ∀ s, exec c s = .next (serveKind k (acceptAccess op) s)
  kind     : Kind.ofByte f.kind = some k
  length   : k.lengthOk f.body = true
  isAccess : k = .lineRead ∨ k = .lineWrite
  fields   : AccessFields f.body b ln offset count
  carries  : op f.body count = carried

theorem accessRequest_lineRead {f : Frame} (hoffset : offset < 2 ^ 32) (hcount : count < 2 ^ 16) (hkind : f.kind = 0x51)
    (hbody : f.body = accessHead b ln offset count) :
    AccessRequest .lineRead f .lineRead (fun _ _ => .read) b ln offset count .read where
  row _ := rfl
  kind := by rw [hkind]; rfl
  length := by rw [hbody, Kind.lengthOk, accessHead_length]; rfl
  isAccess := .inl rfl
  fields := by simpa [hbody] using accessFields_accessHead_append (b := b) (ln := ln) hoffset hcount []
  carries := rfl

theorem accessRequest_lineWrite {f : Frame} {vs : List Int} (hoffset : offset < 2 ^ 32) (hcount : count < 2 ^ 16)
    (hkind : f.kind = 0x52) (hlen : vs.length = count) (hvs : ∀ v ∈ vs, sampleOk v)
    (hbody : f.body = accessHead b ln offset count ++ vs.flatMap s3) :
    AccessRequest .lineWrite f .lineWrite (fun body count => .write (writeSamples body count)) b ln offset count
      (.write vs) where
  row _ := rfl
  kind := by rw [hkind]; rfl
  length := by
    have hbytes : f.body.length = 8 + 3 * count := by
      rw [hbody, List.length_append, accessHead_length, length_flatMap_s3, hlen]
    have hfield : uAt 2 f.body 6 = count := hbody ▸ (accessFields_accessHead_append hoffset hcount _).count_eq
    simp [Kind.lengthOk, hbytes, hfield]
  isAccess := .inr rfl
  fields := hbody ▸ accessFields_accessHead_append hoffset hcount _
  carries := by rw [hbody, writeSamples_accessHead_append hlen hvs]

section
variable {c : Instr} {s : State} {f : Frame} {rest : List Frame} {k : Kind} {op : List Byte → Nat → AccessOp}
  {carried : AccessOp}

theorem AccessRequest.exec_of_setup (h : AccessRequest c f k op b ln offset count carried) (htake : CanTake s f rest)
    (hrun : s.run = none) : exec c s = .next (s.replied f rest .notReady []) := by
  obtain ⟨hserved, hreset⟩ : k.servedInSetup = false ∧ k ≠ .softReset := by
    rcases h.isAccess with rfl | rfl <;> decide
  rw [h.row, serveKind_of_setup htake hrun h.kind h.length hserved hreset]

theorem AccessRequest.exec_of_run (h : AccessRequest c f k op b ln offset count carried) (htake : CanTake s f rest)
    (hrun : s.run.isSome = true) : exec c s = .next (acceptAccess op f (s.takenInFlight rest)) := by
  have hk : k ≠ .setup := by
    rcases h.isAccess with rfl | rfl <;> decide
  rw [h.row, serveKind_of_run htake hrun h.kind h.length hk]

end

end

/-- Settles O39: either row is an access request of its fields, and the owner decides it in the order of R161. -/
theorem lineAccessIsRefusedOrAccepted : Obligations.LineAccessIsRefusedOrAccepted := by
  intro s f rest b ln offset count vs c htake hoffset hcount hrow
  obtain ⟨k, op, hreq⟩ : ∃ k op, AccessRequest c f k op b ln offset count (if c = .lineRead then .read else .write vs) := by
    rcases hrow with ⟨rfl, hkind, hbody⟩ | ⟨rfl, hkind, hlen, hvs, hbody⟩
    · exact ⟨_, _, accessRequest_lineRead hoffset hcount hkind hbody⟩
    · exact ⟨_, _, accessRequest_lineWrite hoffset hcount hkind hlen hvs hbody⟩
  refine ⟨fun hrun => hreq.exec_of_setup htake hrun, fun hrun houtside => ?_, ?_⟩
  · rw [hreq.exec_of_run htake hrun, acceptAccess_of_field_outside hreq.fields houtside]
  · rintro i rfl hrun hln hoff hcnt hcap
    have hf : AccessFieldsOk f.body i ln offset count := ⟨hreq.fields, by omega⟩
    rw [hreq.exec_of_run htake hrun]
    refine ⟨fun hstate => ?_, fun y hstate hy => ⟨fun hlines => ?_, fun l hl => ?_⟩⟩
    · rw [acceptAccess_of_not_held hf hstate]
    · rw [acceptAccess_of_no_line hf hstate hy (List.getElem?_eq_none hlines)]
    · rw [acceptAccess_of_line hf hstate hy hl]
      refine ⟨fun hbeyond => ?_, fun hheld => ⟨fun hbusy => ?_, fun hfree => ?_⟩⟩
      · rw [if_pos hbeyond]
      · rw [if_neg (Nat.not_lt.2 hheld), if_pos hbusy]
      · have hidle : ¬ s.access.isSome = true := by simp [hfree]
        rw [if_neg (Nat.not_lt.2 hheld), if_neg hidle, accessPositions_eq, hreq.carries]

end Sys2Proof.Machine
end

section
/-! IDENTIFY (R193): the reply is read from no field of the state, so both part states give the same bytes. -/

namespace Sys2Proof.Machine

/-- The bytes of an IDENTIFY reply: the part code, seven bytes of one field each, and LEN 1024 (R193, R203). -/
theorem identifyBody_eq :
    identifyBody = [0x5A, 0x45, 0x33, 0x32, 0x32, 0x34, 1, 24, 64, 32, 32, 2, 4, 0x04, 0x00] := by
  decide

/-- The owner of IDENTIFY answers at once and does nothing else. -/
theorem ownIdentify_takenInFlight (f : Frame) (rest : List Frame) (s : State) :
    ownIdentify f (s.takenInFlight rest) = s.replied f rest .ok identifyBody := by
  rw [ownIdentify, State.answer_takenInFlight]

theorem exec_identify (s : State) : exec .identify s = .next (serveKind .identify ownIdentify s) := rfl

/-- Settles O9: IDENTIFY is served in SETUP and in RUN, so the request reaches its owner in either part state. -/
theorem identifyNamesThePart : Obligations.IdentifyNamesThePart := by
  intro s f rest htake hkind hbody
  have hrow : Kind.ofByte f.kind = some .identify := by rw [hkind]; rfl
  have hlen : Kind.identify.lengthOk f.body = true := by rw [hbody]; rfl
  rw [exec_identify, serveKind_of_servedInSetup htake hrow hlen rfl (by decide), ownIdentify_takenInFlight,
    identifyBody_eq]

end Sys2Proof.Machine
end

section
/-! The request handler (R189, R203): every request row is `serve` for its kind, and the two rows of STOP alone leave frames of their kind to
each other. So what `serve` does with a frame that fails a check, and with one that is not its own, is what each row does. -/

namespace Sys2Proof.Machine

/-! ### What a request-taken event does without its owner (R189) -/

section
variable {k : Kind} {mine : Frame → Bool} {owner : Frame → State → State} {s : State} {f : Frame} {rest : List Frame}

/-- A frame of the row that fails a check is answered with the refusal, and nothing else happens. -/
theorem serve_refused {st : Status} (htake : CanTake s f rest) (hkind : Kind.ofByte f.kind = some k)
    (hmine : mine f = true) (hcheck : (s.takenInFlight rest).precheck k f = some st) :
    serve k mine owner s = s.replied f rest st [] := by
  rw [serve_of_canTake htake, if_pos ⟨hkind, hmine⟩, hcheck]
  exact State.answer_takenInFlight f rest st [] s

/-- A row leaves the state where no frame that can be taken is its own. -/
theorem serve_eq_self
    (h : ∀ f rest, CanTake s f rest → Kind.ofByte f.kind = some k → mine f = false) : serve k mine owner s = s := by
  rcases serve_cases k mine owner s with hsame | ⟨f, rest, htake, hkind, hmine, -⟩
  · exact hsame
  · simp [h f rest htake hkind] at hmine

/-- Where the inbox is empty, the outbox full or the oldest frame is `P`, a frame that can be taken is `P`. -/
theorem CanTake.of_idle {P : Frame → Prop} (htake : CanTake s f rest)
    (hidle : s.link.inbox = [] ∨ 4 ≤ s.link.sendOrder.length + s.link.reserved ∨
      ∃ g rest, s.link.inbox = g :: rest ∧ P g) : P f := by
  rcases hidle with hempty | hfull | ⟨g, rest', hinbox, hg⟩
  · simp [htake.head] at hempty
  · exact absurd htake.place (Nat.not_lt.2 hfull)
  · obtain ⟨rfl, -⟩ : f = g ∧ rest = rest' := by simpa [htake.head] using hinbox
    exact hg

/-! ### The three checks (R189) -/

theorem State.precheck_of_length (hlen : k.lengthOk f.body = false) : s.precheck k f = some .badLength := by
  rw [State.precheck, hlen, if_neg Bool.false_ne_true]

/-- SOFT_RESET in SETUP. -/
theorem State.precheck_softReset_of_setup (hrun : s.run = none) (hlen : Kind.softReset.lengthOk f.body = true) :
    s.precheck .softReset f = some .badState := by
  simp [State.precheck, hlen, hrun]

/-- SETUP in RUN. -/
theorem State.precheck_setup_of_run (hrun : s.run.isSome = true) (hlen : Kind.setup.lengthOk f.body = true) :
    s.precheck .setup f = some .badState := by
  obtain ⟨r, hr⟩ := Option.isSome_iff_exists.1 hrun
  simp [State.precheck, hlen, hr]

end

/-! ### The request rows -/

/-- Row `c` takes the frames of kind `k` that are `mine`, for their `owner`. STORE and ERASE can be preceded by the application event, but only
where they change the library (R146); a frame of the kind that is not `mine` is a STOP with the mode of the other row (log 2). -/
structure RequestRow (c : Instr) (k : Kind) (mine : Frame → Bool) (owner : Frame → State → State) : Prop where
  exec_eq : ∀ s, (serve k mine owner s).library = s.library → exec c s = .next (serve k mine owner s)
  other   : ∀ f, mine f = false →
    k.lengthOk f.body = true ∧ (c = .stopSpill ∧ u1At f.body 1 = 1 ∨ c = .stopCut ∧ u1At f.body 1 = 0)

/-- A row that takes every frame of its kind. -/
theorem requestRow_of_serveKind {c : Instr} {k : Kind} {owner : Frame → State → State}
    (h : ∀ s, exec c s = .next (serveKind k owner s)) : RequestRow c k (fun _ => true) owner where
  exec_eq s _ := h s
  other _ hother := absurd hother (by decide)

/-- A row that takes every frame of its kind and can change library slots. -/
theorem requestRow_of_libraryRequest {c : Instr} {k : Kind} {owner : Frame → State → State}
    (h : ∀ s, exec c s = .next (s.libraryRequest (serveKind k owner))) : RequestRow c k (fun _ => true) owner where
  exec_eq s hlib := (h s).trans (congrArg Host.Outcome.next (State.libraryRequest_of_library hlib))
  other _ hother := absurd hother (by decide)

theorem stopsSpill_eq_false_iff {f : Frame} : stopsSpill f = false ↔ f.body.length = 2 ∧ u1At f.body 1 = 1 := by
  simp [stopsSpill]

theorem stopsCut_eq_false_iff {f : Frame} : stopsCut f = false ↔ f.body.length = 2 ∧ u1At f.body 1 = 0 := by
  simp [stopsCut]

theorem lengthOk_stop_iff {body : List Byte} : Kind.stop.lengthOk body = true ↔ body.length = 2 :=
  beq_iff_eq

theorem exec_stopSpill_eq_serve (s : State) : exec .stopSpill s = .next (serve .stop stopsSpill ownStop s) := rfl

theorem exec_stopCut_eq_serve (s : State) : exec .stopCut s = .next (serve .stop stopsCut ownStop s) := rfl

theorem requestRow_stopSpill : RequestRow .stopSpill .stop stopsSpill ownStop where
  exec_eq s _ := exec_stopSpill_eq_serve s
  other f hother := by
    obtain ⟨hlen, hmode⟩ := stopsSpill_eq_false_iff.1 hother
    exact ⟨lengthOk_stop_iff.2 hlen, .inl ⟨rfl, hmode⟩⟩

theorem requestRow_stopCut : RequestRow .stopCut .stop stopsCut ownStop where
  exec_eq s _ := exec_stopCut_eq_serve s
  other f hother := by
    obtain ⟨hlen, hmode⟩ := stopsCut_eq_false_iff.1 hother
    exact ⟨lengthOk_stop_iff.2 hlen, .inr ⟨rfl, hmode⟩⟩

/-- Each command that takes a request is a row of its kind. -/
theorem exists_requestRow {c : Instr} {k : Kind} (h : requestKind c = some k) :
    ∃ mine owner, RequestRow c k mine owner := by
  cases c <;> cases h
  case store | erase => exact ⟨_, _, requestRow_of_libraryRequest fun _ => rfl⟩
  case stopSpill => exact ⟨_, _, requestRow_stopSpill⟩
  case stopCut => exact ⟨_, _, requestRow_stopCut⟩
  all_goals exact ⟨_, _, requestRow_of_serveKind fun _ => rfl⟩

section
variable {c : Instr} {k : Kind} {mine : Frame → Bool} {owner : Frame → State → State} {s : State} {f : Frame}
  {rest : List Frame}

/-- A STOP frame is the row's own unless it has the mode of the other row. -/
theorem RequestRow.mine_of_modes (row : RequestRow c k mine owner) (hspill : c = .stopSpill → u1At f.body 1 ≠ 1)
    (hcut : c = .stopCut → u1At f.body 1 ≠ 0) : mine f = true := by
  by_contra hmine
  obtain ⟨-, ⟨hc, hmode⟩ | ⟨hc, hmode⟩⟩ := row.other f (Bool.eq_false_iff.2 hmine)
  · exact hspill hc hmode
  · exact hcut hc hmode

/-- A frame of the kind with a wrong length is the row's own: no mode is read from it. -/
theorem RequestRow.mine_of_length (row : RequestRow c k mine owner) (hlen : k.lengthOk f.body = false) :
    mine f = true := by
  by_contra hmine
  obtain ⟨hok, -⟩ := row.other f (Bool.eq_false_iff.2 hmine)
  simp [hlen] at hok

theorem RequestRow.exec_refused {st : Status} (row : RequestRow c k mine owner) (htake : CanTake s f rest)
    (hkind : Kind.ofByte f.kind = some k) (hmine : mine f = true)
    (hcheck : (s.takenInFlight rest).precheck k f = some st) : exec c s = .next (s.replied f rest st []) := by
  have hserve : serve k mine owner s = s.replied f rest st [] := serve_refused htake hkind hmine hcheck
  rw [row.exec_eq s (by rw [hserve, State.replied_library]), hserve]

theorem RequestRow.exec_eq_self (row : RequestRow c k mine owner)
    (h : ∀ f rest, CanTake s f rest → Kind.ofByte f.kind ≠ some k) : exec c s = .next s := by
  have hserve : serve k mine owner s = s := serve_eq_self fun f rest htake hkind => absurd hkind (h f rest htake)
  rw [row.exec_eq s (by rw [hserve]), hserve]

/-! ### UNKNOWN_KIND (R189, R203) -/

theorem exec_unknownKind (s : State) : exec .unknownKind s = .next s.serveUnknown := rfl

theorem State.serveUnknown_of_no_kind (htake : CanTake s f rest) (hkind : Kind.ofByte f.kind = none) :
    s.serveUnknown = s.replied f rest .unknownKind [] := by
  have hunknown : unknown f = true := by rw [unknown, hkind, Option.isNone_none]
  simp only [State.serveUnknown, State.takeHead_of_canTake htake, hunknown, if_true]
  exact State.answer_takenInFlight f rest .unknownKind [] s

theorem State.serveUnknown_eq_self (h : ∀ f rest, CanTake s f rest → ∃ k, Kind.ofByte f.kind = some k) :
    s.serveUnknown = s := by
  unfold State.serveUnknown
  split
  · rfl
  · next f t htaken =>
    obtain ⟨rest, htake, -⟩ := State.takeHead_cases htaken
    obtain ⟨k, hkind⟩ := h f rest htake
    have hknown : ¬ unknown f = true := by simp [unknown, hkind]
    rw [if_neg hknown]

/-! ### A STOP of the other row's mode (log 2) -/

theorem exec_stopSpill_of_cut {b : Byte} (hinbox : s.link.inbox = f :: rest) (hbody : f.body = [b, 1]) :
    exec .stopSpill s = .next s := by
  rw [exec_stopSpill_eq_serve, serve_eq_self fun g rest' htake _ => ?_]
  have hg : g.body = [b, 1] := htake.of_idle (P := fun g => g.body = [b, 1]) (.inr (.inr ⟨f, rest, hinbox, hbody⟩))
  rw [stopsSpill_eq_false_iff, hg]
  exact ⟨rfl, rfl⟩

theorem exec_stopCut_of_spill {b : Byte} (hinbox : s.link.inbox = f :: rest) (hbody : f.body = [b, 0]) :
    exec .stopCut s = .next s := by
  rw [exec_stopCut_eq_serve, serve_eq_self fun g rest' htake _ => ?_]
  have hg : g.body = [b, 0] := htake.of_idle (P := fun g => g.body = [b, 0]) (.inr (.inr ⟨f, rest, hinbox, hbody⟩))
  rw [stopsCut_eq_false_iff, hg]
  exact ⟨rfl, rfl⟩

end

/-! ### Body lengths that a count gives (R203) -/

/-- A LINE_WRITE carries six bytes of fields, a count of two bytes, and three bytes for each word counted. -/
theorem lengthOk_lineWrite_iff {body : List Byte} :
    Kind.lineWrite.lengthOk body = true ↔
      ∃ head count rest, body = head ++ count ++ rest ∧ head.length = 6 ∧ count.length = 2 ∧
        rest.length = 3 * beVal count := by
  simp only [Kind.lengthOk, Bool.and_eq_true, decide_eq_true_eq, beq_iff_eq]
  constructor
  · rintro ⟨hmin, hlen⟩
    have hparts : body = body.take 6 ++ (body.drop 6).take 2 ++ body.drop 8 := by
      rw [List.append_assoc, ← List.drop_drop (i := 2) (j := 6), List.take_append_drop, List.take_append_drop]
    refine ⟨_, _, _, hparts, ?_, ?_, ?_⟩
    · rw [List.length_take]
      omega
    · rw [List.length_take, List.length_drop]
      omega
    · rw [uAt] at hlen
      rw [List.length_drop]
      omega
  · rintro ⟨head, count, rest, rfl, hhead, hcount, hrest⟩
    have hfield : uAt 2 (head ++ count ++ rest) 6 = beVal count := by
      rw [uAt, List.append_assoc, List.drop_left' hhead, List.take_left' hcount]
    rw [hfield, List.length_append, List.length_append]
    omega

/-- A NOTICE_CLEAR carries a count of one byte, and 20 bytes for each entry counted. -/
theorem lengthOk_noticeClear_iff {body : List Byte} :
    Kind.noticeClear.lengthOk body = true ↔ ∃ n rest, body = n :: rest ∧ rest.length = 20 * n.toNat := by
  cases body with
  | nil => simp [Kind.lengthOk]
  | cons n rest =>
    have hcount : u1At (n :: rest) 0 = n.toNat := rfl
    simp only [Kind.lengthOk, hcount, List.length_cons, Bool.and_eq_true, decide_eq_true_eq, beq_iff_eq,
      List.cons.injEq]
    constructor
    · rintro ⟨-, hlen⟩
      exact ⟨n, rest, ⟨rfl, rfl⟩, by omega⟩
    · rintro ⟨n, rest, ⟨rfl, rfl⟩, hlen⟩
      omega

/-- Settles O8: a refusal and an event that is not due are those of `serve`, for every row; the kinds are a table of the 256 bytes, and only
LINE_WRITE and NOTICE_CLEAR read a count for their length. -/
theorem requestHandlerChecks : Obligations.RequestHandlerChecks := by
  refine ⟨fun s f rest htake => ⟨fun hnone => ?_, fun c k hrow hkind => ?_⟩, fun c k s hrow hidle => ?_,
    fun s hidle => ?_, fun s f rest b hinbox _ => ⟨exec_stopSpill_of_cut hinbox, exec_stopCut_of_spill hinbox⟩,
    ?_, fun k body => ?_⟩
  · rw [exec_unknownKind, State.serveUnknown_of_no_kind htake hnone]
  · obtain ⟨mine, owner, row⟩ := exists_requestRow hrow
    refine ⟨fun hlen => ?_, fun hlen hspill hcut => ?_⟩
    · exact row.exec_refused htake hkind (row.mine_of_length hlen) (State.precheck_of_length hlen)
    · have hmine : mine f = true := row.mine_of_modes hspill hcut
      refine ⟨fun hrun hserved hreset => ?_, fun hrun hreset => ?_, fun hrun hsetup => ?_⟩
      · exact row.exec_refused htake hkind hmine
          (State.precheck_takenInFlight_of_setup rest hrun hlen hserved hreset)
      · subst hreset
        exact row.exec_refused htake hkind hmine (State.precheck_softReset_of_setup hrun hlen)
      · subst hsetup
        exact row.exec_refused htake hkind hmine (State.precheck_setup_of_run hrun hlen)
  · obtain ⟨mine, owner, row⟩ := exists_requestRow hrow
    exact row.exec_eq_self fun f rest htake => htake.of_idle (P := fun f => Kind.ofByte f.kind ≠ some k) hidle
  · simp only [exists_and_left] at hidle
    rw [exec_unknownKind, State.serveUnknown_eq_self fun f rest htake =>
      htake.of_idle (P := fun f => ∃ k, Kind.ofByte f.kind = some k) hidle]
  · decide
  · cases k
    case store => exact decide_eq_true_iff
    case lineWrite => exact lengthOk_lineWrite_iff
    case noticeClear => exact lengthOk_noticeClear_iff
    all_goals exact beq_iff_eq

end Sys2Proof.Machine
end

section
/-! A record part that passes its checks (R138 to R140, R204): which fields the program it spells has, entry by entry, and why each lies in
its limits. -/

namespace Sys2Proof.Machine

/-! ### Fields of a record part -/

theorem uAt_lt (n : Nat) (r : List Byte) (o : Nat) : uAt n r o < 256 ^ n :=
  (beVal_lt _).trans_le (Nat.pow_le_pow_right (by decide) (List.length_take_le _ _))

theorem u1At_eq_uAt (r : List Byte) (o : Nat) : u1At r o = uAt 1 r o := by
  rw [u1At, byteAt, uAt, List.getD_eq_getElem?_getD, ← List.head?_drop]
  cases r.drop o with
  | nil => rfl
  | cons b bs => simp [beVal]

theorem s2At_mem_range (r : List Byte) (o : Nat) : -32768 ≤ s2At r o ∧ s2At r o ≤ 32767 := by
  have hlo := BitVec.le_toInt (BitVec.ofNat 16 (uAt 2 r o))
  have hhi := BitVec.toInt_lt (x := BitVec.ofNat 16 (uAt 2 r o))
  simp only [s2At] at *
  omega

/-- A signed field that is not negative is its unsigned value. -/
theorem s2At_eq_uAt {r : List Byte} {o : Nat} (h : 0 ≤ s2At r o) : s2At r o = uAt 2 r o := by
  have hlt := uAt_lt 2 r o
  simp only [s2At, BitVec.toInt_eq_toNat_cond, BitVec.toNat_ofNat] at *
  split at h <;> simp_all <;> omega

/-! ### Codes of a record (R204) -/

theorem placementOf_eq (n : Nat) : placementOf n = [Placement.near, .far, .any][n]? := by
  unfold placementOf
  split <;> simp_all; omega

theorem feedOf_eq (n : Nat) : feedOf n = [Feed.none, .a, .b, .mid][n]? := by
  unfold feedOf
  split <;> simp_all; omega

theorem sourceOf_eq (n : Nat) : sourceOf n = [Source.fixed, .tempo][n]? := by
  unfold sourceOf
  split <;> simp_all; omega

theorem lfoSelOf_eq (n : Nat) : lfoSelOf n = [LfoSel.none, .lfo0, .lfo1][n]? := by
  unfold lfoSelOf
  split <;> simp_all; omega

theorem holdOf_eq (n : Nat) : holdOf n = [false, true][n]? := by
  unfold holdOf
  split <;> simp_all; omega

theorem shapeOf_eq (n : Nat) : shapeOf n = [Shape.triangle, .smooth][n]? := by
  unfold shapeOf
  split <;> simp_all; omega

theorem destOf_eq (n : Nat) : destOf n = ((List.range 8).map Dest.line ++ [.outA, .outB])[n]? := by
  unfold destOf
  split
  case isTrue h => interval_cases n <;> rfl
  case isFalse h =>
    split
    case isTrue h8 => rw [h8]; rfl
    case isFalse h8 =>
      split
      case isTrue h9 => rw [h9]; rfl
      case isFalse h9 => exact (List.getElem?_eq_none (by simp; omega)).symm

/-! ### The entries of a program (R204) -/

theorem allSome_eq_some_iff {α : Type} {l : List (Option α)} {xs : List α} : allSome l = some xs ↔ l = xs.map some := by
  induction l generalizing xs with
  | nil => cases xs <;> simp [allSome]
  | cons x l ih =>
    cases x with
    | none => cases xs <;> simp [allSome]
    | some x =>
      cases xs with
      | nil => cases h : allSome l <;> simp [allSome, h]
      | cons y ys =>
        rw [List.map_cons, List.cons.injEq, ← ih, allSome]
        cases h : allSome l <;> simp

/-- The entries read one by one: as many as counted, each the entry of its number. -/
theorem allSome_range_iff {α : Type} {n : Nat} {f : Nat → Option α} {xs : List α} :
    allSome ((List.range n).map f) = some xs ↔ xs.length = n ∧ ∀ j x, xs[j]? = some x → f j = some x := by
  rw [allSome_eq_some_iff]
  constructor
  · intro h
    have hlen : n = xs.length := by simpa using congrArg List.length h
    refine ⟨hlen.symm, fun j x hx => ?_⟩
    have hj : j < n := by rw [hlen]; exact (List.getElem?_eq_some_iff.1 hx).1
    have hget := congrArg (·[j]?) h
    simpa [hj, hx] using hget
  · rintro ⟨rfl, h⟩
    refine List.ext_getElem (by simp) fun j hj _ => ?_
    have hj' : j < xs.length := by simpa using hj
    simpa using h j xs[j] (List.getElem?_eq_getElem hj')

theorem lineProgAt_eq_some_iff {r : List Byte} {o : Nat} {l : LineProg} :
    lineProgAt r o = some l ↔
      placementOf (u1At r o) = some l.placement ∧ l.length = u1At r (o + 1) ∧ feedOf (u1At r (o + 2)) = some l.feed := by
  unfold lineProgAt
  cases placementOf (u1At r o) <;> cases feedOf (u1At r (o + 2)) <;> cases l <;> simp [eq_comm, and_comm, and_left_comm]

theorem lfoProgAt_eq_some_iff {r : List Byte} {o : Nat} {l : LfoProg} :
    lfoProgAt r o = some l ↔
      l.rate = uAt 2 r o ∧ shapeOf (u1At r (o + 2)) = some l.shape ∧ l.phase = uAt 2 r (o + 3) := by
  unfold lfoProgAt
  cases shapeOf (u1At r (o + 2)) <;> cases l <;> simp [eq_comm]

/-- The raw fields of a tap entry as quotients and remainders of its words. -/
theorem tapRawAt_eq (r : List Byte) (o : Nat) :
    tapRawAt r o =
      { gain := s2At r o, depth := uAt 2 r (o + 2), damp := uAt 2 r (o + 4), source := uAt 4 r (o + 6) / 2 ^ 30,
        dest := uAt 4 r (o + 6) / 2 ^ 26 % 16, fixed := uAt 4 r (o + 6) % 2 ^ 26, line := uAt 2 r (o + 10) / 2 ^ 13,
        lfo := uAt 2 r (o + 10) / 2 ^ 11 % 4, hold := uAt 2 r (o + 10) / 2 ^ 9 % 4, ticks := uAt 2 r (o + 10) % 2 ^ 9 } := by
  have hword := uAt_lt 4 r (o + 6)
  have hhalf := uAt_lt 2 r (o + 10)
  simp only [tapRawAt, bits, TapRaw.mk.injEq, true_and]
  omega

theorem tapProgAt_eq_some_iff {r : List Byte} {o : Nat} {t : TapProg} :
    tapProgAt r o = some t ↔
      t.gain = s2At r o ∧ t.depth = uAt 2 r (o + 2) ∧ t.damp = uAt 2 r (o + 4) ∧
        sourceOf (uAt 4 r (o + 6) / 2 ^ 30) = some t.source ∧ destOf (uAt 4 r (o + 6) / 2 ^ 26 % 16) = some t.dest ∧
        t.fixed = uAt 4 r (o + 6) % 2 ^ 26 ∧ t.line = uAt 2 r (o + 10) / 2 ^ 13 ∧
        lfoSelOf (uAt 2 r (o + 10) / 2 ^ 11 % 4) = some t.lfo ∧ holdOf (uAt 2 r (o + 10) / 2 ^ 9 % 4) = some t.hold ∧
        t.ticks = uAt 2 r (o + 10) % 2 ^ 9 := by
  simp only [tapProgAt, tapRawAt_eq]
  generalize sourceOf _ = source
  generalize lfoSelOf _ = lfo
  generalize destOf _ = dest
  generalize holdOf _ = hold
  cases source <;> cases lfo <;> cases dest <;> cases hold <;> cases t <;>
    simp [eq_comm, and_comm, and_left_comm, and_assoc]

/-- The program of a record part, field by field (R204). -/
structure SpelledBy (r : List Byte) (p : Program) : Prop where
  name       : p.name = r.take 16
  lineCount  : p.lines.length = u1At r 16
  tapCount   : p.taps.length = u1At r 17
  lines      : ∀ j l, p.lines[j]? = some l → lineProgAt r (lineOffset j) = some l
  taps       : ∀ k t, p.taps[k]? = some t → tapProgAt r (tapOffset (u1At r 16) k) = some t
  lfo0       : lfoProgAt r (lfoOffset (u1At r 16) (u1At r 17) 0) = some p.lfo0
  lfo1       : lfoProgAt r (lfoOffset (u1At r 16) (u1At r 17) 1) = some p.lfo1
  inGain     : p.inGain = (s2At r 18).toNat
  outGain    : p.outGain = (s2At r 20).toNat
  glide      : p.glide = uAt 2 r 22
  tailFloor  : p.tailFloor = u1At r 24
  quiet      : p.quiet = u1At r 25
  spillLimit : p.spillLimit = uAt 2 r 26

theorem programOf_eq_some_iff {r : List Byte} {p : Program} : programOf r = some p ↔ SpelledBy r p := by
  constructor
  · intro h
    simp only [programOf] at h
    split at h
    case h_1 ls ts l0 l1 hls hts hl0 hl1 =>
      cases h
      obtain ⟨hlineCount, hlines⟩ := allSome_range_iff.1 hls
      obtain ⟨htapCount, htaps⟩ := allSome_range_iff.1 hts
      exact ⟨rfl, hlineCount, htapCount, hlines, htaps, hl0, hl1, rfl, rfl, rfl, rfl, rfl, rfl⟩
    case h_2 => cases h
  · rintro ⟨hname, hlineCount, htapCount, hlines, htaps, hlfo0, hlfo1, hin, hout, hglide, hfloor, hquiet, hlimit⟩
    simp only [programOf, allSome_range_iff.2 ⟨hlineCount, hlines⟩, allSome_range_iff.2 ⟨htapCount, htaps⟩, hlfo0, hlfo1,
      ← hname, ← hin, ← hout, ← hglide, ← hfloor, ← hquiet, ← hlimit]

/-! ### Every field of a record part that passes lies in its limits (R134, R138, R140) -/

theorem nameWf_iff_nameOk {name : List Byte} (hlen : name.length = 16) : nameOk name = true ↔ nameWf name := by
  have hsplit := List.takeWhile_append_dropWhile (p := fun c : Byte => c != 0) (l := name)
  have htake := congrArg List.length hsplit
  rw [List.length_append, hlen] at htake
  simp only [nameOk, Bool.and_eq_true, Bool.not_eq_true', List.isEmpty_eq_false_iff, List.all_eq_true,
    decide_eq_true_eq, beq_iff_eq]
  constructor
  · rintro ⟨⟨hne, hchars⟩, hfill⟩
    have hpos := List.length_pos_iff.2 hne
    refine ⟨hlen, (name.takeWhile fun c => c != 0).length, hpos, by omega, ?_, ?_⟩
    · nth_rewrite 2 [← hsplit]
      rwa [List.take_left]
    · nth_rewrite 2 [← hsplit]
      rwa [List.drop_left]
  · rintro ⟨-, n, hpos, hle, hchars, hfill⟩
    have hnonzero : ∀ b ∈ name.take n, (b != 0) = true := by
      intro b hb
      have hge := (hchars b hb).1
      rw [bne_iff_ne]
      rintro rfl
      simp at hge
    have hparts : name = name.take n ++ name.drop n := (List.take_append_drop n name).symm
    have hend : (name.drop n).takeWhile (fun c => c != 0) = [] := by
      cases hd : name.drop n with
      | nil => rfl
      | cons b bs => simp [hfill b (by simp [hd])]
    have hchars' : name.takeWhile (fun c => c != 0) = name.take n := by
      rw [hparts, List.takeWhile_append_of_pos hnonzero, hend, List.append_nil, ← hparts]
    have hfill' : name.dropWhile (fun c => c != 0) = name.drop n := by
      rw [hchars'] at hsplit
      exact List.append_cancel_left (hsplit.trans hparts)
    rw [hchars', hfill']
    exact ⟨⟨by rw [← List.length_pos_iff, List.length_take]; omega, hchars⟩, hfill⟩

section
variable {r : List Byte} {nl o : Nat}

theorem lineProg_wf {l : LineProg} (hok : ∀ c ∈ lineChecks r o, c = true) (hl : lineProgAt r o = some l) : l.wf := by
  obtain ⟨hplacement, hlength, -⟩ := lineProgAt_eq_some_iff.1 hl
  simp only [lineChecks, List.forall_mem_cons, decide_eq_true_eq, ← hlength, hplacement, Option.some.injEq] at hok
  obtain ⟨-, ⟨hmin, hmax⟩, -⟩ := hok
  refine ⟨hmin, ?_⟩
  split <;> simp_all

theorem Dest.wf_of_destOk {n : Nat} {d : Dest} (hok : destOk nl n = true) (hd : destOf n = some d) : d.wf nl := by
  cases d with
  | outA | outB => trivial
  | line k => simpa [destOk, hd, Dest.wf] using hok

theorem tapProg_wf {t : TapProg} (hok : ∀ c ∈ tapChecks r nl o, c = true) (ht : tapProgAt r o = some t) : t.wf nl := by
  obtain ⟨hgain, hdepth, hdamp, -, hdest, hfixed, hline, -, -, hticks⟩ := tapProgAt_eq_some_iff.1 ht
  simp only [tapChecks, tapRawAt_eq, List.forall_mem_cons, decide_eq_true_eq, ← hdamp, ← hfixed, ← hline, ← hticks] at hok
  obtain ⟨hlineOk, -, hfixedOk, hticksOk, -, -, -, hdampOk, hdestOk, -⟩ := hok
  have hdepthOk := uAt_lt 2 r (o + 2)
  exact ⟨hlineOk, hfixedOk, hticksOk, by omega, hgain ▸ s2At_mem_range r o, hdampOk, Dest.wf_of_destOk hdestOk hdest⟩

theorem lfoProg_wf {l : LfoProg} (hok : ∀ c ∈ lfoChecks r o, c = true) (hl : lfoProgAt r o = some l) : l.wf := by
  obtain ⟨hrate, -, hphase⟩ := lfoProgAt_eq_some_iff.1 hl
  simp only [lfoChecks, List.forall_mem_cons, decide_eq_true_eq, ← hrate] at hok
  obtain ⟨⟨hmin, hmax⟩, -⟩ := hok
  have hphaseOk := uAt_lt 2 r (o + 3)
  exact ⟨hmin, hmax, by omega⟩

/-- The header of a record part that passes (R138). -/
theorem headerChecks_iff (hlen : 32 ≤ r.length) :
    (∀ c ∈ headerChecks r, c = true) ↔
      nameWf (r.take 16) ∧ (1 ≤ u1At r 16 ∧ u1At r 16 ≤ 8) ∧ (1 ≤ u1At r 17 ∧ u1At r 17 ≤ 32) ∧ 0 ≤ s2At r 18 ∧ 0 ≤ s2At r 20 ∧
        u1At r 24 ≤ 8 ∧ (1 ≤ u1At r 25 ∧ u1At r 25 ≤ 15) ∧ 1 ≤ uAt 2 r 26 := by
  have hname : (r.take 16).length = 16 := by rw [List.length_take]; omega
  have hin := (s2At_mem_range r 18).2
  have hout := (s2At_mem_range r 20).2
  simp [headerChecks, nameWf_iff_nameOk hname, hin, hout]

/-- A record part that passes spells a program within every limit. -/
theorem SpelledBy.wf {p : Program} (hlen : 32 ≤ r.length) (hfault : recordFault r = none) (hp : SpelledBy r p) : p.wf := by
  obtain ⟨hheader, -, hentries⟩ := recordFault_eq_none_iff.1 hfault
  obtain ⟨hname, hlineCount, htapCount, hin, hout, hfloor, hquiet, hlimit⟩ := (headerChecks_iff hlen).1 hheader
  obtain ⟨hlines, htaps, hlfo0, hlfo1⟩ := forall_mem_entryChecks_iff.1 hentries
  have hinMax := (s2At_mem_range r 18).2
  have houtMax := (s2At_mem_range r 20).2
  have hglideMax := uAt_lt 2 r 22
  have hlimitMax := uAt_lt 2 r 26
  refine ⟨hp.name ▸ hname, hp.lineCount ▸ hlineCount, hp.tapCount ▸ htapCount, fun l hl => ?_, fun t ht => ?_,
    lfoProg_wf hlfo0 hp.lfo0, lfoProg_wf hlfo1 hp.lfo1, ?_, ?_, ?_, hp.tailFloor ▸ hfloor, hp.quiet ▸ hquiet, ?_⟩
  · obtain ⟨j, hj⟩ := List.mem_iff_getElem?.1 hl
    have hlt := (List.getElem?_eq_some_iff.1 hj).1
    exact lineProg_wf (hlines j (hp.lineCount ▸ hlt)) (hp.lines j l hj)
  · obtain ⟨k, hk⟩ := List.mem_iff_getElem?.1 ht
    have hlt := (List.getElem?_eq_some_iff.1 hk).1
    exact hp.lineCount ▸ tapProg_wf (htaps k (hp.tapCount ▸ hlt)) (hp.taps k t hk)
  · rw [hp.inGain]; omega
  · rw [hp.outGain]; omega
  · rw [hp.glide]; omega
  · rw [hp.spillLimit]; omega

end

/-- Settles O14: the checks that passed make every entry one of the program, and each entry is read from its bytes and bits. -/
theorem passingRecordIsWithinLimits : Obligations.PassingRecordIsWithinLimits := by
  intro r hmin _ hfault
  obtain ⟨hheader, hlen, hentries⟩ := recordFault_eq_none_iff.1 hfault
  obtain ⟨-, -, -, hin, hout, -, -, -⟩ := (headerChecks_iff hmin).1 hheader
  obtain ⟨p, hprogram⟩ := exists_programOf hentries
  have hp := programOf_eq_some_iff.1 hprogram
  refine ⟨p, hprogram, hp.wf hmin hfault, ?_, ?_⟩
  · rw [hlen, hp.lineCount, hp.tapCount, recordLength]
  · intro u
    have hbyte (o : Nat) : u1At r o = u o 1 := u1At_eq_uAt r o
    refine ⟨?_, ?_, hp.name, ?_, ?_, hp.glide, ?_, ?_, hp.spillLimit, ?_, ?_, ?_⟩
    · rw [hp.lineCount, hbyte]
    · rw [hp.tapCount, hbyte]
    · rw [hp.inGain, s2At_eq_uAt hin]; rfl
    · rw [hp.outGain, s2At_eq_uAt hout]; rfl
    · rw [hp.tailFloor, hbyte]
    · rw [hp.quiet, hbyte]
    · intro j l hl o
      have hentry := lineProgAt_eq_some_iff.1 (hp.lines j l hl)
      rwa [placementOf_eq, feedOf_eq, hbyte, hbyte, hbyte] at hentry
    · intro k t ht o
      have hentry := tapProgAt_eq_some_iff.1 (hp.taps k t ht)
      rwa [sourceOf_eq, destOf_eq, lfoSelOf_eq, holdOf_eq, tapOffset, ← hp.lineCount] at hentry
    · intro k l hl o
      have hentry : lfoProgAt r (lfoOffset (u1At r 16) (u1At r 17) k) = some l := by
        match k with
        | 0 => cases hl; exact hp.lfo0
        | 1 => cases hl; exact hp.lfo1
      rw [lfoProgAt_eq_some_iff, shapeOf_eq, lfoOffset, ← hp.lineCount, ← hp.tapCount, hbyte] at hentry
      exact hentry

end Sys2Proof.Machine
end

section
/-! What a command can do, said once: a command is a chain of small moves, each of which changes few fields under a condition that the
model has just checked. An invariant that every move keeps is kept by every command. -/

namespace Sys2Proof.Machine

/-! ### The moves -/

/-- The commands that may write a word of the delay memories without a power-up: frame starts, the service event and SETUP. -/
def writesMemory : Instr → Bool
  | .setup _ | .serviceEvent _ | .afsEdge _ _ _ | .edgeWatchExpiry _ | .internalFrameTimer _ => true
  | _ => false

/-- The commands that assert RESET: the pin's own, and a frame start that it cuts off (R48). -/
def assertsReset : Instr → Bool
  | .resetPinAssert => true
  | .afsEdge _ _ env | .edgeWatchExpiry env | .internalFrameTimer env => env.cut.isSome
  | _ => false

/-- The requests that change a library slot. -/
def changesLibrary : Instr → Bool
  | .store | .erase | .protect => true
  | _ => false

/-- Whether an address lies in page 0 or in a page of a line that an instance holds. -/
def State.reaches (s : State) (a : Nat) : Prop :=
  a < 2048 ∨ ∃ i y l k, (s.inst i).running = some y ∧ l ∈ y.lines ∧ a = translate l.pages k

/-- The changes that leave the pools, the instances, their lists, the library, the tempo unit and the cue unit. -/
inductive State.PlainMove (c : Instr) (s : State) : State → Prop where
  | link (l : Link) : s.PlainMove c { s with link := l }
  | notices (n : Notices) (h : ∀ g, n.config g = s.notices.config g) : s.PlainMove c { s with notices := n }
  | config (hc : c = .noticeConfig) (g : Group) (x : GroupConfig) (h : x.priority ≤ 3) :
      s.PlainMove c { s with notices := s.notices.setConfig g x }
  | monitor (m : Monitor) (h : MonitorInv s → MonitorInv { s with monitor := m }) : s.PlainMove c { s with monitor := m }
  | ports (p : Ports) (h : PortsInv s → PortsInv { s with ports := p }) : s.PlainMove c { s with ports := p }
  | pin (b : Bool) : s.PlainMove c { s with resetPin := b }
  | errors (e : ErrorRecord) (h : ServiceInv s → ServiceInv { s with errors := e }) : s.PlainMove c { s with errors := e }
  | corrections (l : List WriteBack) (h : l.Sublist s.corrections) : s.PlainMove c { s with corrections := l }
  | offer (a : Nat) (v : Int) (hnew : ∀ e ∈ s.corrections, e.addr ≠ a) (hroom : s.corrections.length < 8) (ha : s.reaches a)
      (hrun : s.run = none → s.access ≠ none) : s.PlainMove c { s with corrections := s.corrections ++ [⟨a, v⟩] }
  | memory (n : List (Nat × BitVec 24)) (d : List (Nat × DramWord)) (hc : writesMemory c = true)
      (h : Memory.wf s = true → Memory.wf { s with near := n, dram := d } = true) : s.PlainMove c { s with near := n, dram := d }
  | access (a : Option LineAccess) (h : s.run = none → s.access = none → a = none) : s.PlainMove c { s with access := a }
  | serviceDue (n : Option Nat) (h : s.run = none → n = none) : s.PlainMove c { s with serviceDue := n }

/-- The moves of instances between their states, with the lists and the pools (chapters 04 and 05). -/
inductive State.EngineMove (s : State) : State → Prop where
  | load (i : InstNo) (k : SlotNo) (r : PresetRecord) (hrun : s.run = none → s.cue.due = true)
      (hstate : (s.inst i).state = .empty ∨ (s.inst i).state = .ready) (hrecord : (s.libSlot k).record = some r) :
      s.EngineMove (s.modInst i (Inst.loaded k r.program))
  | unload (i : InstNo) (hstate : (s.inst i).state = .ready) : s.EngineMove (s.modInst i fun x => Inst.emptyWith x.routing)
  | admission (i : InstNo) (hstate : i ∈ s.queue ∨ (s.inst i).state = .ready) (hfits : s.instFits i s.freeCounts = true) :
      s.EngineMove (State.admission i { s with queue := s.queue.erase i })
  | enqueue (i : InstNo) (hstate : (s.inst i).state = .ready) :
      s.EngineMove (State.modInst i (fun x => { x with state := .waiting }) { s with queue := s.queue ++ [i] })
  | leaveQueue (i : InstNo) (hstate : i ∈ s.queue ∨ (s.inst i).state = .waiting) :
      s.EngineMove (State.modInst i (fun x => { x with state := .ready }) { s with queue := s.queue.erase i })
  | spill (i : InstNo) (hstate : (s.inst i).state = .running ∨ (s.inst i).state = .held) : s.EngineMove (s.toSpilling i)
  | cut (i : InstNo) (why : StopReason)
      (hstate : i ∈ s.spill ∨ (s.inst i).state = .running ∨ (s.inst i).state = .held ∨ (s.inst i).state = .spilling) :
      s.EngineMove (s.toCutting i why)
  | resume (i : InstNo) (hstate : (s.inst i).state = .spilling) : s.EngineMove (s.resume i)
  | hold (i : InstNo) (hstate : (s.inst i).state = .running) : s.EngineMove (s.modInst i fun x => { x with state := .held })
  | unhold (i : InstNo) (hstate : (s.inst i).state = .held) : s.EngineMove (s.modInst i fun x => { x with state := .running })
  | set (i : InstNo) (d : Ident) (k : Nat) (v : Int) : s.EngineMove (s.modInst i (Inst.store s.clockRate d k (d.clamp v)))
  | release (i : InstNo) (hstate : (s.inst i).state = .spilling ∨ (s.inst i).state = .cutting) :
      s.EngineMove (State.modInst i Inst.released
        { s with run := s.run.map (Run.takeBack (s.inst i)), spill := s.spill.erase i })
  | voidDecision (i : InstNo) (hstate : (s.inst i).state ≠ .spilling) : s.EngineMove (s.modInst i fun x => { x with decision := none })
  | voidRelease (i : InstNo) : s.EngineMove (s.modInst i fun x => { x with releaseDue := false })

/-- The changes of the tempo unit (R50 to R54). -/
inductive State.TempoMove (s : State) : Tempo → Prop where
  | set (v : Nat) : s.TempoMove { s.tempo with tempo := clampTempo v }
  | mode (on : Bool) : s.TempoMove (s.tempo.setMode on)
  | tick (r : Run) (hrun : s.run = some r) : s.TempoMove (s.tempo.tick r.rate)
  | edge (r : Run) (hrun : s.run = some r) (hmode : s.tempo.tapMode = true) : s.TempoMove (s.tapEdge r.rate).tempo

/-- The changes of the cue unit (R119, R120, R122 to R125, R129). -/
inductive State.CueMove (s : State) : Cue → Prop where
  | add (e : CueEntry) (hrun : s.run ≠ none) (hroom : s.cue.list.length < 32) (hdomain : e.domainOk = true) :
      s.CueMove { s.cue with list := s.cue.list ++ [e] }
  | clear : s.CueMove { s.cue with list := [] }
  | fire (o : GoOrigin) (hrun : s.run ≠ none) (hlist : s.cue.list ≠ []) : s.CueMove (s.cue.fire o)
  | due (r : Run) (hrun : s.run = some r) : s.CueMove { s.cue with due := s.cue.pendingFlag }
  | complete : s.CueMove { s.cue with fired := [], pendingFlag := false, origin := none, due := false }

/-- The moves that neither take an instance through a frame nor reset anything. -/
inductive QuietMove (c : Instr) (s : State) : State → Prop where
  | plain {t : State} (h : s.PlainMove c t) : QuietMove c s t
  | engine {t : State} (h : s.EngineMove t) : QuietMove c s t
  | tempo {u : Tempo} (h : s.TempoMove u) : QuietMove c s { s with tempo := u }
  | cue {x : Cue} (h : s.CueMove x) : QuietMove c s { s with cue := x }

/-- One small move of a command. -/
inductive Move (c : Instr) (s : State) : State → Prop where
  | quiet {t : State} (h : QuietMove c s t) : Move c s t
  | library (hc : changesLibrary c = true) (k : SlotNo) (x : LibSlot)
      (h : ∀ q, x.record = some q → (s.libSlot k).record = some q ∨ q.wf) : Move c s (s.setLibSlot k x)
  | advance (i : InstNo) (r : Run) (p : Program) (y : Running) (u : State) (hrun : s.run = some r)
      (hprogram : (s.inst i).program = some p) (hrunning : (s.inst i).running = some y)
      (hpages : (s.inst i).state.holdsPages = true) (htempo : u.tempo = s.tempo)
      (hdecision : 255 ≤ y.windowProgress → (s.inst i).decision = none) :
      Move c s (s.setInst i (instFrame r.rate i (s.inst i) p y u).inst)
  | closeWindow (i : InstNo) : Move c s (s.setInst i (s.inst i).closeWindow)
  | enterRun (ticks : Nat) (rate : SampleRate) (size : FarSize) (pol : Polarity) (hrun : s.run = none) :
      Move c s (s.enterRun ticks rate size pol)
  | softEngine (r : Run) (hrun : s.run = some r) : Move c s (s.softEngine r)
  | assertReset (n : List (Nat × BitVec 24)) (d : List (Nat × DramWord)) (hc : assertsReset c = true)
      (hkeep : c = .resetPinAssert → n = s.near ∧ d = s.dram)
      (h : Memory.wf s = true → Memory.wf { s with near := n, dram := d } = true) :
      Move c s { s.resetAssert with near := n, dram := d }
  | powerUp (hc : c = .powerUp) : Move c s s.powerUp

/-- A chain of quiet moves. -/
abbrev Quiet (c : Instr) : State → State → Prop := Relation.ReflTransGen (QuietMove c)

/-- What a command does is a chain of moves. -/
abbrev Moves (c : Instr) : State → State → Prop := Relation.ReflTransGen (Move c)

section
variable {c : Instr} {s t u : State}

theorem Quiet.trans (h : Quiet c s t) (g : Quiet c t u) : Quiet c s u := Relation.ReflTransGen.trans h g

theorem Moves.trans (h : Moves c s t) (g : Moves c t u) : Moves c s u := Relation.ReflTransGen.trans h g

theorem State.PlainMove.chain (h : s.PlainMove c t) : Quiet c s t := .single (.plain h)

theorem State.EngineMove.chain (h : s.EngineMove t) : Quiet c s t := .single (.engine h)

theorem State.CueMove.chain {x : Cue} (h : s.CueMove x) : Quiet c s { s with cue := x } := .single (.cue h)

theorem State.TempoMove.chain {u : Tempo} (h : s.TempoMove u) : Quiet c s { s with tempo := u } := .single (.tempo h)

theorem Quiet.moves (h : Quiet c s t) : Moves c s t :=
  Relation.ReflTransGen.mono (fun _ _ hmove => Move.quiet hmove) _ _ h

/-- A predicate that every quiet move keeps is kept by a chain of them. -/
theorem Quiet.keeps {P : State → Prop} (hmove : ∀ {s t}, QuietMove c s t → P s → P t) (h : Quiet c s t) (hs : P s) : P t := by
  induction h with
  | refl => exact hs
  | tail _ hlast ih => exact hmove hlast ih

/-- A predicate that every move keeps is kept by a chain of them. -/
theorem Moves.keeps {P : State → Prop} (hmove : ∀ {s t}, Move c s t → P s → P t) (h : Moves c s t) (hs : P s) : P t := by
  induction h with
  | refl => exact hs
  | tail _ hlast ih => exact hmove hlast ih

end

/-! ### The link and the notices -/

section
variable {c : Instr} (s : State)

theorem quiet_raise (k : Condition) : Quiet c s (s.raise k) :=
  (State.PlainMove.notices _ fun g => Notices.config_raise k s.notices g).chain

theorem quiet_place (r : Reply) : Quiet c s (s.place r) := (State.PlainMove.link _).chain

theorem quiet_answer (f : Frame) (st : Status) (b : List Byte) : Quiet c s (s.answer f st b) := quiet_place s _

theorem quiet_takenInFlight (rest : List Frame) : Quiet c s (s.takenInFlight rest) := (State.PlainMove.link _).chain

theorem quiet_setReceiver (r : Receiver) : Quiet c s (s.setReceiver r) := (State.PlainMove.link _).chain

end

/-! ### The admission unit (chapter 05) -/

section
variable {c : Instr}

theorem quiet_endAccess (st : Status) (s : State) : Quiet c s (s.endAccess st) := by
  unfold State.endAccess
  split
  · exact (State.PlainMove.access none fun _ _ => rfl).chain.trans (quiet_place _ _)
  · exact .refl

theorem quiet_abortAccessOf (i : InstNo) (s : State) : Quiet c s (s.abortAccessOf i) := by
  unfold State.abortAccessOf
  split
  · split
    · exact quiet_endAccess _ s
    · exact .refl
  · exact .refl

theorem quiet_steal {i : InstNo} {s : State} (h : i ∈ s.spill) : Quiet c s (s.steal i) :=
  (State.EngineMove.cut i .stolen (.inl h)).chain.trans (quiet_raise _ _)

theorem quiet_stealUntil (i : InstNo) (n : Nat) : ∀ (counts : Counts) (s : State), Quiet c s (stealUntil i n counts s).2 := by
  induction n with
  | zero => exact fun _ _ => .refl
  | succ n ih =>
    intro counts s
    simp only [stealUntil]
    split
    · exact .refl
    · split
      · exact .refl
      · next j rest hspill => exact (quiet_steal (hspill ▸ List.mem_cons_self)).trans (ih _ _)

theorem quiet_admitHead {i : InstNo} {s : State} (h : i ∈ s.queue) (hfits : s.instFits i s.freeCounts = true) :
    Quiet c s (s.admitHead i) :=
  (State.EngineMove.admission i (.inl h) hfits).chain.trans (quiet_raise _ _)

theorem quiet_giveUp {i : InstNo} {s : State} (h : i ∈ s.queue) : Quiet c s (s.giveUp i) :=
  (State.EngineMove.leaveQueue i (.inl h)).chain.trans (quiet_raise _ _)

theorem stealUntil_queue (i : InstNo) (n : Nat) : ∀ (counts : Counts) (s : State), (stealUntil i n counts s).2.queue = s.queue := by
  induction n with
  | zero => exact fun _ _ => rfl
  | succ n ih =>
    intro counts s
    simp only [stealUntil]
    split
    · rfl
    · split
      · rfl
      · rw [ih]; rfl

theorem quiet_serveHeads (n : Nat) : ∀ s : State, Quiet c s (serveHeads n s) := by
  induction n with
  | zero => exact fun _ => .refl
  | succ n ih =>
    intro s
    simp only [serveHeads]
    split
    · exact .refl
    · next i rest hqueue =>
      have hmem : i ∈ s.queue := hqueue ▸ List.mem_cons_self
      split
      · next hfits => exact (quiet_admitHead hmem hfits).trans (ih _)
      · split
        · exact quiet_stealUntil _ _ _ _
        · exact ((quiet_stealUntil _ _ _ _).trans (quiet_giveUp (by rwa [stealUntil_queue]))).trans (ih _)

theorem quiet_headService (s : State) : Quiet c s s.headService := quiet_serveHeads _ s

/-- A release, once its state allows it, is the return of the pages with its notice, then head service (R106). -/
theorem quiet_releaseInst {i : InstNo} {s : State} (h : (s.inst i).state = .spilling ∨ (s.inst i).state = .cutting) :
    Quiet c s (s.releaseInst i) :=
  ((State.EngineMove.release i h).chain.trans (quiet_raise _ _)).trans (quiet_headService _)

/-- Clearing the decision first makes no difference to a release, which clears it too. -/
theorem State.releaseInst_modInst {i : InstNo} {f : Inst → Inst} (hrunning : ∀ x, (f x).running = x.running)
    (hreleased : ∀ x, (f x).released = x.released) (s : State) : (s.modInst i f).releaseInst i = s.releaseInst i := by
  have hback (r : Run) : Run.takeBack (f (s.inst i)) r = Run.takeBack (s.inst i) r := by simp only [Run.takeBack, hrunning]
  have hinst (run : Option Run) (spill : List InstNo) :
      State.modInst i Inst.released { s.modInst i f with run := run, spill := spill } =
        State.modInst i Inst.released { s with run := run, spill := spill } := by
    simp [State.modInst, State.setInst, State.inst, hreleased]
  simp only [State.releaseInst, State.modInst_inst_self, State.modInst_run, State.modInst_spill, funext hback, hinst]

theorem quiet_tailDecision (i : InstNo) (s : State) : Quiet c s (s.tailDecision i) := by
  unfold State.tailDecision
  split
  · exact .refl
  · split
    · next hstate =>
      split
      · dsimp only
        rw [State.releaseInst_modInst (f := fun x => { x with decision := none }) (fun _ => rfl) fun _ => rfl]
        exact quiet_releaseInst (.inl hstate)
      · have hcut : (s.modInst i fun x => { x with decision := none }).limitCut i = s.limitCut i := by
          simp [State.limitCut, State.toCutting, State.modInst, State.setInst, State.inst]
        rw [hcut]
        exact (State.EngineMove.cut i .limit (.inr (.inr (.inr hstate)))).chain.trans (quiet_raise _ _)
    · next hstate => exact (State.EngineMove.voidDecision i hstate).chain

theorem quiet_cutRelease (i : InstNo) (s : State) : Quiet c s (s.cutRelease i) := by
  unfold State.cutRelease
  split
  · dsimp only
    split
    · next hstate =>
      rw [State.releaseInst_modInst (f := fun x => { x with releaseDue := false }) (fun _ => rfl) fun _ => rfl]
      exact quiet_releaseInst (.inr hstate)
    · exact (State.EngineMove.voidRelease i).chain
  · exact .refl

theorem quiet_startReady {i : InstNo} {s : State} (h : (s.inst i).state = .ready) : Quiet c s (s.startReady i).2 := by
  unfold State.startReady
  split
  · next hfits =>
    simp only [Bool.and_eq_true, List.isEmpty_iff] at hfits
    have hqueue : s.queue.erase i = s.queue := by rw [hfits.1]; rfl
    have hmove := State.EngineMove.admission i (.inr h) hfits.2
    rw [hqueue] at hmove
    exact hmove.chain
  · split
    · exact .refl
    · exact (State.EngineMove.enqueue i h).chain.trans (quiet_headService _)

/-! ### Instance requests and cue entries (chapters 04 and 06) -/

theorem quiet_doLoad (i : InstNo) (k : SlotNo) {s : State} (hrun : s.run = none → s.cue.due = true) :
    Quiet c s (s.doLoad i k).2 := by
  have hload (hstate : (s.inst i).state = .empty ∨ (s.inst i).state = .ready) :
      Quiet c s (match s.library[k.val].record with
        | some r => (Status.ok, s.modInst i (Inst.loaded k r.program))
        | none => (.empty, s)).2 := by
    split
    · next r hrecord => exact (State.EngineMove.load i k r hrun hstate hrecord).chain
    · exact .refl
  unfold State.doLoad
  split
  · next h => exact hload (.inl h)
  · next h => exact hload (.inr h)
  all_goals exact .refl

theorem quiet_doUnload (i : InstNo) (s : State) : Quiet c s (s.doUnload i).2 := by
  unfold State.doUnload
  split
  case h_2 h => exact (State.EngineMove.unload i h).chain
  all_goals exact .refl

theorem quiet_doStart (i : InstNo) (s : State) : Quiet c s (s.doStart i).2 := by
  unfold State.doStart
  split
  case h_3 h => exact quiet_startReady h
  case h_6 h => exact (State.EngineMove.resume i h).chain
  all_goals exact .refl

theorem quiet_dequeue {i : InstNo} {s : State} (h : (s.inst i).state = .waiting) : Quiet c s (s.dequeue i) := by
  have hleave : Quiet c s _ := (State.EngineMove.leaveQueue i (.inr h)).chain
  unfold State.dequeue
  split
  · exact hleave.trans (quiet_headService _)
  · exact hleave

/-- Ending an access leaves every context. -/
theorem State.abortAccessOf_inst (i j : InstNo) (s : State) : (s.abortAccessOf i).inst j = s.inst j :=
  State.inst_congr (s.abortAccessOf_keeps i).1 j

theorem quiet_doStopSpill (i : InstNo) (s : State) : Quiet c s (s.doStopSpill i).2 := by
  unfold State.doStopSpill
  split
  case h_5 h => exact quiet_dequeue h
  case h_6 h => exact (State.EngineMove.spill i (.inl h)).chain
  case h_7 h =>
    exact (quiet_abortAccessOf i s).trans (State.EngineMove.spill i (.inr (by rwa [State.abortAccessOf_inst]))).chain
  all_goals exact .refl

theorem quiet_doStopCut (i : InstNo) (s : State) : Quiet c s (s.doStopCut i).2 := by
  unfold State.doStopCut
  split
  case h_4 h => exact quiet_dequeue h
  case h_5 h => exact (State.EngineMove.cut i .user (.inr (.inl h))).chain
  case h_6 h => exact (State.EngineMove.cut i .user (.inr (.inr (.inr h)))).chain
  case h_7 h =>
    exact (quiet_abortAccessOf i s).trans
      (State.EngineMove.cut i .user (.inr (.inr (.inl (by rwa [State.abortAccessOf_inst]))))).chain
  all_goals exact .refl

theorem quiet_doHold (i : InstNo) (s : State) : Quiet c s (s.doHold i).2 := by
  unfold State.doHold
  split
  case h_1 h => exact (State.EngineMove.hold i h).chain
  all_goals exact .refl

theorem quiet_doUnhold (i : InstNo) (s : State) : Quiet c s (s.doUnhold i).2 := by
  unfold State.doUnhold
  split
  case h_1 h => exact (quiet_abortAccessOf i s).trans (State.EngineMove.unhold i (by rwa [State.abortAccessOf_inst])).chain
  all_goals exact .refl

theorem quiet_doSet (i : InstNo) (d : Ident) (k : Nat) (v : Int) (s : State) : Quiet c s (s.doSet i d k v).2 := by
  unfold State.doSet
  split
  · exact .refl
  · split
    · exact (State.EngineMove.set i d k v).chain
    · exact .refl

theorem quiet_applyEntry (e : CueEntry) {s : State} (hrun : s.run = none → s.cue.due = true) :
    Quiet c s (applyEntry e s).2 := by
  unfold applyEntry
  split
  · split
    · exact quiet_doLoad _ _ hrun
    · exact .refl
  · exact quiet_doStart _ s
  · exact quiet_doStopSpill _ s
  · exact quiet_doStopCut _ s
  · exact quiet_doHold _ s
  · exact quiet_doUnhold _ s
  · split
    · exact quiet_doSet _ _ _ _ s
    · exact .refl

end

end Sys2Proof.Machine
end

section
/-! Every command as a chain of moves: the application event, the memory service, frame starts and requests, then `exec` row by row. -/

namespace Sys2Proof.Machine

section
variable {c : Instr}

/-! ### The application event (R125 to R129) -/

theorem quiet_applyEntries (es : List CueEntry) : ∀ (k : Nat) (n : CueCounts) {s : State}, s.cue.due = true →
    Quiet c s (applyEntries k es n s).2 := by
  induction es with
  | nil => exact fun _ _ _ _ => .refl
  | cons e es ih =>
    intro k n s hdue
    simp only [applyEntries]
    split
    · exact (quiet_applyEntry e fun _ => hdue).trans (ih _ _ (by rwa [(applyEntry_onlyAborts e s).cue]))
    · exact ih _ _ hdue

theorem quiet_answerGo (st : Status) (n : CueCounts) (s : State) : Quiet c s (s.answerGo st n) := by
  unfold State.answerGo
  split
  · exact quiet_place _ _
  all_goals exact .refl

theorem quiet_completeCue (n : CueCounts) (s : State) : Quiet c s (s.completeCue n) :=
  ((quiet_answerGo .ok n s).trans State.CueMove.complete.chain).trans (quiet_raise _ _)

theorem quiet_applyCue (s : State) : Quiet c s s.applyCue := by
  unfold State.applyCue
  split
  · next hdue => exact (quiet_applyEntries _ _ _ hdue).trans (quiet_completeCue _ _)
  · exact .refl

/-! ### Checked words (R150, R152, R154, R156) -/

theorem State.reaches_congr {s t : State} (h : t.instances = s.instances) {a : Nat} (ha : s.reaches a) : t.reaches a := by
  simpa only [State.reaches, State.inst_congr h] using ha

theorem quiet_countCorrected (a : Nat) (s : State) : Quiet c s (s.countCorrected a) := by
  refine .trans ?_ (quiet_raise _ _)
  refine (State.PlainMove.errors _ fun h => ?_).chain
  exact { h with corrected := satCount_le _ }

theorem quiet_countUncorrectable (a : Nat) (s : State) : Quiet c s (s.countUncorrectable a) := by
  refine .trans ?_ (quiet_raise _ _)
  refine (State.PlainMove.errors _ fun h => ?_).chain
  exact { h with uncorrectable := satCount_le _ }

theorem quiet_offer {a : Nat} (v : Int) {s : State} (ha : s.reaches a) (hrun : s.run = none → s.access ≠ none) :
    Quiet c s (s.offer a v) := by
  obtain ⟨-, h⟩ | ⟨hnew, hroom, h⟩ | ⟨-, -, h⟩ := State.offer_cases a v s
  · rw [h]
  · rw [h]
    simp only [List.any_eq_false, beq_iff_eq] at hnew
    exact (State.PlainMove.offer a v hnew hroom ha hrun).chain
  · rw [h]
    refine .trans ?_ (quiet_raise _ _)
    refine (State.PlainMove.errors _ fun h => ?_).chain
    exact { h with dropped := satCount_le _ }

/-! ### Words written (R149, R155) -/

theorem quiet_writeNear (hc : writesMemory c = true) (a : Nat) (v : Int) (s : State) : Quiet c s (s.writeNear a v) :=
  (State.PlainMove.memory _ s.dram hc fun h => Memory.wf_writeNear a v h).chain

theorem quiet_writeDram (hc : writesMemory c = true) (a : Nat) (v : Int) (s : State) : Quiet c s (s.writeDram a v) :=
  (State.PlainMove.memory s.near _ hc fun h => Memory.wf_writeDram a v h).chain

theorem quiet_writeWord (hc : writesMemory c = true) (p : Pool) (a : Nat) (v : Int) (s : State) :
    Quiet c s (s.writeWord p a v) := by
  cases p with
  | near => exact quiet_writeNear hc a v s
  | far => exact (State.PlainMove.corrections _ List.filter_sublist).chain.trans (quiet_writeDram hc a v _)

theorem quiet_upset (hc : writesMemory c = true) (u : Upset) (s : State) : Quiet c s (s.upset u) := by
  have hwf := Memory.wf_upset u (s := s)
  unfold State.upset at *
  split
  · next w hw =>
    simp only [hw] at hwf
    exact (State.PlainMove.memory s.near _ hc hwf).chain
  · exact .refl

theorem quiet_upsets (hc : writesMemory c = true) (us : List Upset) : ∀ s : State, Quiet c s (s.upsets us) := by
  induction us with
  | nil => exact fun _ => .refl
  | cons u us ih => exact fun s => (quiet_upset hc u s).trans (ih _)

theorem quiet_sized (hc : writesMemory c = true) (size : FarSize) (us : List Upset) (s : State) : Quiet c s (s.sized size us) :=
  ((quiet_writeDram hc _ _ s).trans (quiet_writeDram hc _ _ _)).trans (quiet_upsets hc us _)

/-! ### The service event (R159 to R165) -/

theorem State.reaches_accessAddr (a : LineAccess) (s : State) : s.reaches (s.accessAddr a) := by
  unfold State.accessAddr
  split
  · next l hl =>
    obtain ⟨y, hy, hline⟩ := Option.bind_eq_some_iff.1 hl
    exact .inr ⟨a.inst, y, l, _, hy, List.mem_of_getElem? hline, rfl⟩
  · exact .inl (by decide)

theorem quiet_serveNearWord (hc : writesMemory c = true) (a : LineAccess) (s : State) : Quiet c s (serveNearWord a s).2 := by
  unfold serveNearWord
  split
  · exact .refl
  · exact quiet_writeNear hc _ _ s

theorem quiet_serveNearWords (hc : writesMemory c = true) (n : Nat) : ∀ (a : LineAccess) (s : State),
    Quiet c s (serveNearWords n a s).2 := by
  induction n with
  | zero => exact fun _ _ => .refl
  | succ n ih => exact fun a s => (quiet_serveNearWord hc a s).trans (ih _ _)

@[simp] theorem serveNearWord_access (a : LineAccess) (s : State) : (serveNearWord a s).2.access = s.access := by
  unfold serveNearWord
  split <;> rfl

@[simp] theorem serveNearWords_access (n : Nat) : ∀ (a : LineAccess) (s : State), (serveNearWords n a s).2.access = s.access := by
  induction n with
  | zero => exact fun _ _ => rfl
  | succ n ih => exact fun a s => (ih _ _).trans (serveNearWord_access a s)

theorem quiet_serveFarWord (hc : writesMemory c = true) (a : LineAccess) {s : State} (haccess : s.access ≠ none) :
    Quiet c s (serveFarWord a s).2 := by
  unfold serveFarWord
  dsimp only
  split
  · split
    · exact .refl
    · exact (quiet_countCorrected _ s).trans (quiet_offer _ (s.reaches_accessAddr a) fun _ => haccess)
    · exact quiet_countUncorrectable _ s
  · exact quiet_writeWord hc .far _ _ s

@[simp] theorem serveFarWord_access (a : LineAccess) (s : State) : (serveFarWord a s).2.access = s.access := by
  unfold serveFarWord
  dsimp only
  split
  · split
    · rfl
    · exact (State.offer_keeps _ _ _).2.2.2.2.1
    · rfl
  · rfl

theorem quiet_keepAccess (a : LineAccess) {s : State} (haccess : s.access ≠ none) : Quiet c s (s.keepAccess a) := by
  have hset : Quiet c s { s with access := some a } := (State.PlainMove.access _ fun _ h => absurd h haccess).chain
  unfold State.keepAccess
  split
  · exact hset.trans (quiet_endAccess _ _)
  · exact hset

theorem quiet_serveNear (hc : writesMemory c = true) (s : State) : Quiet c s s.serveNear := by
  unfold State.serveNear
  split
  · next a ha =>
    split
    · exact (quiet_serveNearWords hc _ a s).trans (quiet_keepAccess _ (by simp [ha]))
    · exact .refl
  · exact .refl

theorem quiet_serveSlot (hc : writesMemory c = true) (s : State) : Quiet c s s.serveSlot := by
  unfold State.serveSlot
  split
  · next e rest h =>
    exact (State.PlainMove.corrections rest (h ▸ List.sublist_cons_self e rest)).chain.trans (quiet_writeDram hc _ _ _)
  · split
    · next a ha =>
      split
      · exact (quiet_serveFarWord hc a (by simp [ha])).trans (quiet_keepAccess _ (by simp [ha]))
      · exact .refl
    · exact .refl

theorem quiet_serveSlots (hc : writesMemory c = true) (n : Nat) : ∀ s : State, Quiet c s (serveSlots n s) := by
  induction n with
  | zero => exact fun _ => .refl
  | succ n ih =>
    intro s
    simp only [serveSlots]
    split
    · exact (quiet_serveSlot hc s).trans (ih _)
    · exact .refl

theorem quiet_service (hc : writesMemory c = true) (us : List Upset) (s : State) : Quiet c s (s.service us) := by
  unfold State.service
  split
  · exact (((quiet_upsets hc us s).trans (State.PlainMove.serviceDue none fun _ => rfl).chain).trans (quiet_serveNear hc _)).trans
      (quiet_serveSlots hc _ _)
  · exact .refl

/-! ### Before a frame's processing (R53, R113, R124, R159, R171) -/

/-- No window-end decision of the instance stands while the next frame would end its window (R113). -/
def State.windowFree (i : InstNo) (s : State) : Prop :=
  ∀ y, (s.inst i).running = some y → 255 ≤ y.windowProgress → (s.inst i).decision = none

theorem State.windowFree_congr {s t : State} {i : InstNo} (hinst : t.inst i = s.inst i) (h : s.windowFree i) : t.windowFree i := by
  simpa only [State.windowFree, hinst] using h

/-- A plain move leaves every instance. -/
theorem State.PlainMove.instances {s t : State} (h : s.PlainMove c t) : t.instances = s.instances := by
  cases h <;> rfl

/-- What an instance's context may become without a frame, for its window: nothing that brings the window nearer to its end beside a
decision. -/
theorem State.windowFree_modInst {i j : InstNo} {g : Inst → Inst} {s u : State} (hinst : ∀ k, u.inst k = s.inst k)
    (hg : ((g (s.inst j)).decision = none) ∨
      (g (s.inst j)).decision = (s.inst j).decision ∧
        (g (s.inst j)).running.map Running.windowProgress = (s.inst j).running.map Running.windowProgress)
    (h : s.windowFree i) : (u.modInst j g).windowFree i := by
  intro y hy hprogress
  rw [State.modInst_inst] at *
  split at hy <;> [skip; (rw [if_neg ‹_›]; rw [hinst] at *; exact h y hy hprogress)]
  next hij =>
  subst hij
  rw [if_pos rfl, hinst] at *
  obtain hnone | ⟨hdecision, hwindow⟩ := hg
  · exact hnone
  · rw [hdecision]
    rw [hy] at hwindow
    obtain ⟨z, hz, hzw⟩ := Option.map_eq_some_iff.1 hwindow.symm
    exact h z hz (hzw ▸ hprogress)

theorem State.EngineMove.windowFree {s t : State} {i : InstNo} (hmove : s.EngineMove t) (h : s.windowFree i) : t.windowFree i := by
  have same (k : InstNo) : s.inst k = s.inst k := rfl
  cases hmove with
  | load j k r _ _ _ => exact State.windowFree_modInst same (.inr ⟨rfl, rfl⟩) h
  | unload j _ => exact State.windowFree_modInst same (.inl rfl) h
  | admission j _ _ =>
    unfold State.admission
    split
    · exact State.windowFree_modInst (fun k => rfl) (.inl rfl) h
    · exact h
  | enqueue j _ => exact State.windowFree_modInst (fun k => rfl) (.inr ⟨rfl, rfl⟩) h
  | leaveQueue j _ => exact State.windowFree_modInst (fun k => rfl) (.inr ⟨rfl, rfl⟩) h
  | spill j _ => exact State.windowFree_modInst (fun k => rfl) (.inl rfl) h
  | cut j why _ => exact State.windowFree_modInst (fun k => rfl) (.inl rfl) h
  | resume j _ => exact State.windowFree_modInst (fun k => rfl) (.inl rfl) h
  | hold j _ => exact State.windowFree_modInst same (.inr ⟨rfl, rfl⟩) h
  | unhold j _ => exact State.windowFree_modInst same (.inr ⟨rfl, rfl⟩) h
  | set j d k v =>
    refine State.windowFree_modInst same (.inr ⟨rfl, ?_⟩) h
    have hstore (y : Running) : (Running.store s.clockRate d k (d.clamp v) y).windowProgress = y.windowProgress := by
      unfold Running.store
      split
      · split <;> rfl
      all_goals rfl
    simp only [Inst.store, Option.map_map, Function.comp_def, hstore]
  | release j _ => exact State.windowFree_modInst (fun k => rfl) (.inl rfl) h
  | voidDecision j _ => exact State.windowFree_modInst same (.inl rfl) h
  | voidRelease j => exact State.windowFree_modInst same (.inr ⟨rfl, rfl⟩) h

theorem Quiet.windowFree {s t : State} {i : InstNo} (hchain : Quiet c s t) (h : s.windowFree i) : t.windowFree i := by
  refine Quiet.keeps (P := fun s => s.windowFree i) (fun hmove h => ?_) hchain h
  cases hmove with
  | plain hmove => exact State.windowFree_congr (State.inst_congr hmove.instances i) h
  | engine hmove => exact hmove.windowFree h
  | tempo _ => exact h
  | cue _ => exact h

theorem quiet_overdueDecision (i : InstNo) (s : State) : Quiet c s (s.overdueDecision i) := by
  unfold State.overdueDecision
  split
  · split
    · exact quiet_tailDecision i s
    · exact .refl
  · exact .refl

/-- After its decision is taken, none stands. -/
theorem State.windowFree_tailDecision (i : InstNo) (s : State) : (s.tailDecision i).windowFree i := by
  have hnone {u : State} (h : (u.inst i).decision = none) : u.windowFree i := fun _ _ _ => h
  unfold State.tailDecision
  split
  · next h => exact hnone h
  · split
    · split
      · refine Quiet.windowFree (c := .release i) (quiet_headService _) (hnone ?_)
        simp [State.raise, State.inst, Inst.released]
      · refine hnone ?_
        simp [State.limitCut, State.raise, State.inst, State.toCutting]
    · exact hnone (by simp)

theorem State.windowFree_overdueDecision (i : InstNo) (s : State) : (s.overdueDecision i).windowFree i := by
  unfold State.overdueDecision
  split
  · next y hy =>
    split
    · exact s.windowFree_tailDecision i
    · next hfew =>
      intro z hz hprogress
      obtain rfl : y = z := Option.some.inj (hy.symm.trans hz)
      exact absurd (show windowFrames ≤ y.windowProgress + 1 by simpa [windowFrames] using hprogress) hfew
  · next hy => exact fun z hz => by simp [hy] at hz

theorem quiet_overdueDecisions (l : List InstNo) : ∀ s : State, Quiet c s (l.foldl State.overdueDecision s) := by
  induction l with
  | nil => exact fun _ => .refl
  | cons i l ih => exact fun s => (quiet_overdueDecision i s).trans (ih _)

theorem State.windowFree_overdueDecisions {i : InstNo} {l : List InstNo} (h : i ∈ l) :
    ∀ s : State, (l.foldl State.overdueDecision s).windowFree i := by
  induction l with
  | nil => cases h
  | cons j l ih =>
    intro s
    obtain rfl | h := List.mem_cons.1 h
    · exact (quiet_overdueDecisions (c := .release i) l _).windowFree (s.windowFree_overdueDecision i)
    · exact ih h _

theorem mem_frameOrder (order : List InstNo) (i : InstNo) : i ∈ frameOrder order := by
  simp [frameOrder, allInsts]

theorem nodup_eraseDups {α : Type} [BEq α] [LawfulBEq α] (l : List α) : l.eraseDups.Nodup := by
  induction hn : l.length using Nat.strong_induction_on generalizing l with
  | _ n ih =>
    cases l with
    | nil => simp
    | cons a l =>
      rw [List.eraseDups_cons, List.nodup_cons]
      refine ⟨by simp, ih _ ?_ _ rfl⟩
      have := List.length_filter_le (fun b => !b == a) l
      simp only [List.length_cons] at hn
      omega

theorem nodup_frameOrder (order : List InstNo) : (frameOrder order).Nodup := nodup_eraseDups _

theorem quiet_finishFrame (hc : writesMemory c = true) (order : List InstNo) (s : State) : Quiet c s (s.finishFrame order) :=
  ((quiet_overdueDecisions _ s).trans (quiet_service hc _ _)).trans (quiet_applyCue _)

theorem State.windowFree_finishFrame (order : List InstNo) (i : InstNo) (s : State) : (s.finishFrame order).windowFree i :=
  Quiet.windowFree ((quiet_service (c := .serviceEvent []) rfl _ _).trans (quiet_applyCue _))
    (State.windowFree_overdueDecisions (mem_frameOrder order i) s)

theorem sampleOk_zero : sampleOk 0 := ⟨by decide, by decide⟩

theorem quiet_transmit (s : State) : Quiet c s s.transmit := by
  unfold State.transmit
  split
  · have hsend : Quiet c s { s with ports := { s.ports with transmit := s.ports.pending } } := by
      refine (State.PlainMove.ports _ fun h k => ?_).chain
      exact ⟨(h k).1, (h k).2.1, (h k).2.1⟩
    dsimp only
    split
    · exact hsend
    · exact hsend.trans (quiet_raise _ _)
  · refine (State.PlainMove.ports _ fun h k => ?_).chain
    exact ⟨(h k).1, (h k).2.1, by simpa [silence] using sampleOk_zero⟩

theorem quiet_markFrame {r : Run} {s : State} (hrun : s.run = some r) : Quiet c s (s.markFrame r) := by
  have hne {u : State} (hu : u.run = s.run) : u.run ≠ none := by simp [hu, hrun]
  have hdue : Quiet c s { s with serviceDue := some r.leftover } :=
    (State.PlainMove.serviceDue _ fun h => absurd h (hne rfl)).chain
  have haccess (u : State) (hu : u.run = s.run) (a : Option LineAccess) : Quiet c u { u with access := a } :=
    (State.PlainMove.access _ fun h => absurd h (hne hu)).chain
  have hcue (u : State) (hu : u.run = s.run) : Quiet c u { u with cue := { u.cue with due := u.cue.pendingFlag } } :=
    (State.CueMove.due r (hu.trans hrun)).chain
  exact (hdue.trans (haccess { s with serviceDue := some r.leftover } rfl _)).trans
    (hcue { s with serviceDue := some r.leftover, access := s.access.map fun a => { a with frameSeen := true } } rfl)

theorem quiet_tickMark {r : Run} {s : State} (hrun : s.run = some r) :
    Quiet c s (State.markFrame r { s with tempo := s.tempo.tick r.rate }) :=
  (State.TempoMove.tick r hrun).chain.trans (quiet_markFrame hrun)

theorem quiet_openFrame (hc : writesMemory c = true) {inputs : Vector Int 32} (hinputs : ∀ k : PortNo, sampleOk inputs[k.val])
    (env : FrameEnv) (s : State) : Quiet c s (s.openFrame inputs env) := by
  have hin (u : State) : Quiet c u { u with ports := { u.ports with inputs := inputs } } := by
    refine (State.PlainMove.ports _ fun h k => ?_).chain
    exact ⟨hinputs k, (h k).2⟩
  have hopen := (((quiet_finishFrame hc env.order s).trans (quiet_upsets hc env.upsets _)).trans (quiet_transmit _)).trans (hin _)
  unfold State.openFrame
  dsimp only
  split
  · exact hopen
  · next r hrun => exact hopen.trans (quiet_tickMark hrun)

theorem State.windowFree_openFrame (inputs : Vector Int 32) (env : FrameEnv) (i : InstNo) (s : State) :
    (s.openFrame inputs env).windowFree i := by
  have hsent : ((s.finishFrame env.order).upsets env.upsets).transmit.windowFree i :=
    Quiet.windowFree ((quiet_upsets (c := .serviceEvent []) rfl _ _).trans (quiet_transmit _))
      (s.windowFree_finishFrame env.order i)
  unfold State.openFrame
  dsimp only
  split <;> exact hsent

end

end Sys2Proof.Machine
end

section
/-! Frames and requests as chains of moves, and with them every command. -/

namespace Sys2Proof.Machine

section
variable {c : Instr}

/-! ### One instance in one frame (R24, R44) -/

@[simp] theorem countRead_instances (x : ReadOutcome × Option Nat) (s : State) : (countRead x s).instances = s.instances := by
  unfold countRead
  split <;> rfl

@[simp] theorem offerRead_instances (x : ReadOutcome × Option Nat) (s : State) : (offerRead x s).instances = s.instances := by
  unfold offerRead
  split
  · exact (State.offer_keeps _ _ s).2.1
  · rfl

@[simp] theorem tapService_instances (l : LineRun) (d : Nat) (s : State) : (tapService l d s).instances = s.instances := by
  unfold tapService
  dsimp only
  split <;> simp

@[simp] theorem tapsFrame_instances (x : FrameCtx) (ts : List TapProg) : ∀ (us : List TapRun) (s : State),
    (tapsFrame x ts us s).2.instances = s.instances := by
  induction ts with
  | nil => intro us s; simp [tapsFrame]
  | cons t ts ih =>
    intro us s
    cases us with
    | nil => simp [tapsFrame]
    | cons u us => simp [tapsFrame, ih]

@[simp] theorem writeLines_instances (ls : List LineRun) : ∀ (accs : List Int) (s : State),
    (writeLines ls accs s).instances = s.instances := by
  induction ls with
  | nil => intro accs s; simp [writeLines]
  | cons l ls ih =>
    intro accs s
    cases accs with
    | nil => simp [writeLines]
    | cons acc accs =>
      simp only [writeLines, ih]
      cases l.pool <;> rfl

@[simp] theorem instFrame_instances (rate : SampleRate) (i : InstNo) (x : Inst) (p : Program) (r : Running) (s : State) :
    (instFrame rate i x p r s).state.instances = s.instances := by
  simp only [instFrame]
  split <;> simp

/-- The address of a checked word lies in the line's pages. -/
theorem sourceSample_address {l : LineRun} {k a : Nat} {s : State} (h : (sourceSample l k s).2 = some a) :
    ∃ n, a = translate l.pages n := by
  unfold sourceSample at h
  split at h
  · simp at h
  · dsimp only at h
    split at h
    · simp at h
    · exact ⟨_, (Option.some.inj h).symm⟩

theorem quiet_countRead (x : ReadOutcome × Option Nat) (s : State) : Quiet c s (countRead x s) := by
  unfold countRead
  split
  · exact quiet_countCorrected _ s
  · exact quiet_countUncorrectable _ s
  · exact .refl

theorem quiet_offerRead {x : ReadOutcome × Option Nat} {s : State} (hx : ∀ a, x.2 = some a → s.reaches a) (hrun : s.run ≠ none) :
    Quiet c s (offerRead x s) := by
  unfold offerRead
  split
  · next ha => exact quiet_offer _ (hx _ ha) fun h => absurd h hrun
  · exact .refl

theorem quiet_tapService {l : LineRun} (d : Nat) {s : State} (hl : ∀ n, s.reaches (translate l.pages n)) (hrun : s.run ≠ none) :
    Quiet c s (tapService l d s) := by
  have hreach {u : State} (hu : u.instances = s.instances) (k a : Nat) (ha : (sourceSample l k s).2 = some a) : u.reaches a := by
    obtain ⟨n, rfl⟩ := sourceSample_address ha
    exact State.reaches_congr hu (hl n)
  have hcount := (quiet_countRead (c := c) (sourceSample l (d / 256) s) s).trans
    (quiet_countRead (sourceSample l (d / 256 + 1) s) _)
  have hbeside := (sameBeside_countRead (sourceSample l (d / 256) s) s).trans
    (sameBeside_countRead (sourceSample l (d / 256 + 1) s) _)
  unfold tapService
  dsimp only
  split
  · refine (hcount.trans (quiet_offerRead (hreach (by simp) _) (by rwa [hbeside.run]))).trans
      (quiet_offerRead (hreach (by simp) _) ?_)
    rwa [(sameBeside_offerRead _ _).run, hbeside.run]
  · exact hcount

theorem quiet_tapsFrame (x : FrameCtx) (ts : List TapProg) : ∀ (us : List TapRun) {s : State},
    (∀ t n, s.reaches (translate (x.lineOf t).pages n)) → s.run ≠ none → Quiet c s (tapsFrame x ts us s).2 := by
  induction ts with
  | nil => intro us s _ _; simp only [tapsFrame]; exact .refl
  | cons t ts ih =>
    intro us s hlines hrun
    cases us with
    | nil => simp only [tapsFrame]; exact .refl
    | cons u us =>
      refine (quiet_tapService _ (hlines t) hrun).trans (ih us (fun t n => ?_) ?_)
      · exact State.reaches_congr (tapService_instances _ _ s) (hlines t n)
      · rwa [(sameBeside_tapService _ _ s).run]

theorem quiet_writeLines (hc : writesMemory c = true) (ls : List LineRun) : ∀ (accs : List Int) (s : State),
    Quiet c s (writeLines ls accs s) := by
  induction ls with
  | nil => intro accs s; simp only [writeLines]; exact .refl
  | cons l ls ih =>
    intro accs s
    cases accs with
    | nil => simp only [writeLines]; exact .refl
    | cons acc accs => exact (quiet_writeWord hc _ _ _ s).trans (ih accs _)

/-- A line of an instance's frame is one it holds, or an empty one. -/
theorem FrameCtx.reaches_lineOf {x : FrameCtx} {i : InstNo} {y : Running} {s : State} (hy : (s.inst i).running = some y)
    (hx : x.lines = y.lines) (t : TapProg) (n : Nat) : s.reaches (translate (x.lineOf t).pages n) := by
  unfold FrameCtx.lineOf
  rw [hx, List.getD_eq_getElem?_getD]
  cases hline : y.lines[t.line]? with
  | some l => exact .inr ⟨i, y, l, n, hy, List.mem_of_getElem? hline, rfl⟩
  | none =>
    refine .inl ?_
    simp only [Option.getD_none, translate, List.getD_nil, pageWords]
    omega

/-- The memory service's work and the line writes of one instance's frame, with its notice. -/
theorem quiet_instFrame (hc : writesMemory c = true) (rate : SampleRate) {i : InstNo} (p : Program) {y : Running} {s : State}
    (hy : (s.inst i).running = some y) (hrun : s.run ≠ none) : Quiet c s (instFrame rate i (s.inst i) p y s).state := by
  have htaps : Quiet c s (tapsFrame (frameCtx rate i (s.inst i) p y s) p.taps y.taps s).2 :=
    quiet_tapsFrame _ _ _ (FrameCtx.reaches_lineOf hy rfl) hrun
  have hlines accs := htaps.trans (quiet_writeLines hc y.lines accs _)
  simp only [instFrame]
  split
  · exact (hlines _).trans (quiet_raise _ _)
  · exact hlines _

theorem moves_processInst (hc : writesMemory c = true) {r : Run} (i : InstNo) {acc : Vector Int 32 × State}
    (hrun : acc.2.run = some r) (hfree : acc.2.windowFree i) : Moves c acc.2 (processInst r.rate i acc).2 := by
  unfold processInst
  dsimp only
  split
  · next p y hp hy =>
    split
    · next hpages =>
      have hquiet : Quiet c acc.2 (instFrame r.rate i (acc.2.inst i) p y acc.2).state :=
        quiet_instFrame hc r.rate p hy (by simp [hrun])
      refine hquiet.moves.trans (.single ?_)
      have hbeside := sameBeside_instFrame r.rate i (acc.2.inst i) p y acc.2
      have hinst : (instFrame r.rate i (acc.2.inst i) p y acc.2).state.inst i = acc.2.inst i :=
        State.inst_congr (instFrame_instances ..) i
      have hmove := Move.advance (c := c) (s := (instFrame r.rate i (acc.2.inst i) p y acc.2).state) i r p y acc.2
        (hbeside.run.trans hrun) (by rw [hinst]; exact hp) (by rw [hinst]; exact hy) (by rw [hinst]; exact hpages)
        hbeside.tempo.symm (by rw [hinst]; exact hfree y hy)
      rwa [hinst] at hmove
    · exact .refl
  · exact .refl

/-- The processing of one instance changes no other context. -/
theorem processInst_inst_ne {i j : InstNo} (h : j ≠ i) (rate : SampleRate) (acc : Vector Int 32 × State) :
    (processInst rate i acc).2.inst j = acc.2.inst j := by
  unfold processInst
  dsimp only
  split
  · split
    · rw [State.setInst_inst_ne h, State.inst_congr (instFrame_instances ..)]
    · rfl
  · rfl

theorem moves_processInsts (hc : writesMemory c = true) {r : Run} (l : List InstNo) : ∀ {acc : Vector Int 32 × State},
    l.Nodup → acc.2.run = some r → (∀ i ∈ l, acc.2.windowFree i) →
      Moves c acc.2 (l.foldl (fun acc i => processInst r.rate i acc) acc).2 := by
  induction l with
  | nil => exact fun _ _ _ => .refl
  | cons i l ih =>
    intro acc hnodup hrun hfree
    obtain ⟨hi, hl⟩ := List.nodup_cons.1 hnodup
    refine (moves_processInst hc i hrun (hfree i List.mem_cons_self)).trans (ih hl ?_ fun j hj => ?_)
    · exact (processInst_keeps r.rate i acc).1.run.trans hrun
    · have hne : j ≠ i := fun h => hi (h ▸ hj)
      exact State.windowFree_congr (processInst_inst_ne hne r.rate acc) (hfree j (List.mem_cons_of_mem i hj))

theorem moves_processAll (hc : writesMemory c = true) {r : Run} (order : List InstNo) {s : State} (hrun : s.run = some r)
    (hfree : ∀ i, s.windowFree i) : Moves c s (processAll r.rate order s).2 :=
  moves_processInsts hc _ (acc := (Vector.replicate 32 0, s)) (nodup_frameOrder order) hrun fun i _ => hfree i

/-! ### Frame starts (R24, R48) -/

theorem sampleOk_sat24 (x : Int) : sampleOk (sat24 x) := by
  unfold sat24 clampInt sampleOk
  split
  · omega
  · split <;> omega

theorem moves_wholeFrame (hc : writesMemory c = true) {inputs : Vector Int 32} (hinputs : ∀ k : PortNo, sampleOk inputs[k.val])
    (env : FrameEnv) (s : State) : Moves c s (s.wholeFrame inputs env) := by
  have hopen : Moves c s (s.openFrame inputs env) := (quiet_openFrame hc hinputs env s).moves
  have hports (u : State) (x : Vector Int 32) (m : BitVec 32) (hx : ∀ k : PortNo, sampleOk x[k.val]) :
      Moves c u { u with ports := { u.ports with pending := x, pendingClip := m } } := by
    refine (State.PlainMove.ports _ fun h k => ?_).chain.moves
    exact ⟨(h k).1, hx k, (h k).2.2⟩
  unfold State.wholeFrame
  dsimp only
  split
  · exact hopen.trans (hports _ _ _ fun k => by simpa [silence] using sampleOk_zero)
  · next r hrun =>
    refine (hopen.trans (moves_processAll hc env.order hrun fun i => s.windowFree_openFrame inputs env i)).trans
      (hports _ _ _ fun k => ?_)
    simpa [pendingOf] using sampleOk_sat24 _

theorem moves_cutFrameStart (hc : writesMemory c = true) (hreset : assertsReset c = true) {inputs : Vector Int 32}
    (hinputs : ∀ k : PortNo, sampleOk inputs[k.val]) (n : Nat) (env : FrameEnv) (s : State) :
    Moves c s (s.cutFrameStart inputs n env) := by
  have hopen : Moves c s (s.openFrame inputs env) := (quiet_openFrame hc hinputs env s).moves
  have hpin : c ≠ .resetPinAssert := by rintro rfl; cases hc
  have hassert (u : State) (x : List (Nat × BitVec 24)) (d : List (Nat × DramWord))
      (h : Memory.wf u = true → Memory.wf { u with near := x, dram := d } = true) :
      Moves c u { u.resetAssert with near := x, dram := d } :=
    .single (.assertReset x d hreset (fun h => absurd h hpin) h)
  obtain ⟨-, h⟩ | ⟨r, -, h⟩ := State.cutFrameStart_cases inputs n env s
  · rw [h]
    exact hopen.trans (hassert _ _ _ id)
  · rw [h]
    refine hopen.trans (hassert _ _ _ fun hwf => ?_)
    exact (Memory.wf_congr rfl rfl).trans ((cutFrame_keeps r.rate _ n _).2 hwf)

theorem moves_frame (hc : writesMemory c = true) {env : FrameEnv} (hreset : env.cut.isSome = true → assertsReset c = true)
    {inputs : Vector Int 32} (hinputs : ∀ k : PortNo, sampleOk inputs[k.val]) {s t : State}
    (h : s.frame inputs env = .next t) : Moves c s t := by
  unfold State.frame at h
  split at h
  · obtain rfl := Host.Outcome.next.inj h
    cases hcut : env.cut with
    | none => rw [State.frameStart_whole hcut]; exact moves_wholeFrame hc hinputs env s
    | some n => rw [State.frameStart_cut hcut]; exact moves_cutFrameStart hc (hreset (by simp [hcut])) hinputs n env s
  · cases h

end

end Sys2Proof.Machine
end

section
/-! Edges, requests and every row of `exec` as chains of moves. -/

namespace Sys2Proof.Machine

section
variable {c : Instr}

/-! ### Edges, expiries and the timer (R174 to R180) -/

theorem quiet_monitor {g : Monitor → Monitor} {s : State} (h : MonitorInv s → MonitorInv (s.modMonitor g)) :
    Quiet c s (s.modMonitor g) :=
  (State.PlainMove.monitor _ h).chain

/-- The limits of the two counts (R174). -/
theorem monitorInv_iff (s : State) :
    MonitorInv s ↔ (s.monitor.lock = .locked → s.monitor.good ≤ 16 ∧ s.monitor.bad ≤ 3) ∧
      (s.monitor.lock = .free → s.monitor.good ≤ 15 ∧ s.monitor.bad ≤ 4) := by
  unfold MonitorInv
  cases s.monitor.lock <;> simp

/-- What the check of the bad count leaves of a monitor: FREE where four bad periods have been counted while LOCKED (R177). -/
def Monitor.holdover (m : Monitor) : Monitor :=
  if m.lock = .locked ∧ m.bad = 4 then { m with lock := .free, good := 0, bad := 0 } else m

/-- What the check of the good count leaves of a monitor: LOCKED where sixteen good periods have been counted while FREE (R179). -/
def Monitor.relock (m : Monitor) : Monitor :=
  if m.lock = .free ∧ m.good = 16 then { m with lock := .locked, good := 0, bad := 0 } else m

theorem State.holdoverCheck_cases (s : State) :
    s.holdoverCheck = s.modMonitor Monitor.holdover ∨ s.holdoverCheck = (s.modMonitor Monitor.holdover).raise .holdover := by
  by_cases h : s.monitor.lock = .locked ∧ s.monitor.bad = 4
  · exact .inr (by simp only [State.holdoverCheck, State.modMonitor, Monitor.holdover, if_pos h])
  · exact .inl (by simp only [State.holdoverCheck, State.modMonitor, Monitor.holdover, if_neg h])

theorem State.lockCheck_cases (s : State) :
    s.lockCheck = s.modMonitor Monitor.relock ∨ s.lockCheck = (s.modMonitor Monitor.relock).raise .lockRestored := by
  by_cases h : s.monitor.lock = .free ∧ s.monitor.good = 16
  · exact .inr (by simp only [State.lockCheck, State.modMonitor, Monitor.relock, if_pos h])
  · exact .inl (by simp only [State.lockCheck, State.modMonitor, Monitor.relock, if_neg h])

/-- A change of the monitor with the check of the bad count that follows it. -/
theorem quiet_holdoverCheck {g : Monitor → Monitor} {s : State}
    (h : MonitorInv s → MonitorInv (s.modMonitor fun m => (g m).holdover)) : Quiet c s (s.modMonitor g).holdoverCheck := by
  obtain he | he := (s.modMonitor g).holdoverCheck_cases
  · rw [he]; exact quiet_monitor h
  · rw [he]; exact (quiet_monitor h).trans (quiet_raise _ _)

/-- A change of the monitor with the check of the good count that follows it. -/
theorem quiet_lockCheck {g : Monitor → Monitor} {s : State}
    (h : MonitorInv s → MonitorInv (s.modMonitor fun m => (g m).relock)) : Quiet c s (s.modMonitor g).lockCheck := by
  obtain he | he := (s.modMonitor g).lockCheck_cases
  · rw [he]; exact quiet_monitor h
  · rw [he]; exact (quiet_monitor h).trans (quiet_raise _ _)

theorem monitorInv_holdover (s : State) (h : MonitorInv s) : MonitorInv (s.modMonitor fun m => m.countBad.holdover) := by
  simp only [monitorInv_iff, State.modMonitor_monitor, Monitor.holdover, Monitor.countBad] at *
  grind

theorem monitorInv_relock {good : Bool} {s : State} (hlock : s.monitor.lock = .free) (h : MonitorInv s) :
    MonitorInv (s.modMonitor fun m => (if good then m.countGood else m.countBad).markNow.relock) := by
  simp only [monitorInv_iff, State.modMonitor_monitor, Monitor.relock, Monitor.countBad, Monitor.countGood, Monitor.markNow] at *
  grind

theorem monitorInv_pass (d : Nat) {s : State} (h : MonitorInv s) : MonitorInv (s.modMonitor (Monitor.pass d)) := h

theorem quiet_pass (d : Nat) (s : State) : Quiet c s (s.modMonitor (Monitor.pass d)) := quiet_monitor (monitorInv_pass d)

theorem moves_lockedEdge (hc : writesMemory c = true) {env : FrameEnv} (hreset : env.cut.isSome = true → assertsReset c = true)
    (lanes : InputLanes) (p : Nat) {s t : State} (hlock : s.monitor.lock = .locked) (h : s.lockedEdge p lanes env = .next t) :
    Moves c s t := by
  unfold State.lockedEdge at h
  split at h
  · have hgood : Quiet c s (s.modMonitor fun m => m.countGood.markNow.frameNow) := quiet_monitor fun hinv => by
      simp only [monitorInv_iff, State.modMonitor_monitor, Monitor.countGood, Monitor.markNow, Monitor.frameNow] at *
      grind
    exact hgood.moves.trans (moves_frame hc hreset (fun k => by rw [laneSamples_get]; exact sampleOk_slotSample _) h)
  · obtain rfl := Host.Outcome.next.inj h
    exact (quiet_holdoverCheck (monitorInv_holdover s)).moves

theorem quiet_freeEdge (p : Nat) {s : State} (hlock : s.monitor.lock = .free) : Quiet c s (s.freeEdge p) :=
  quiet_lockCheck (monitorInv_relock hlock)

theorem sampleOk_silence (k : PortNo) : sampleOk silence[k.val] := by simpa [silence] using sampleOk_zero

theorem moves_afsEdge {ticks : Nat} {lanes : InputLanes} {env : FrameEnv} {s t : State}
    (h : execAfsEdge ticks lanes env s = .next t) : Moves (.afsEdge ticks lanes env) s t := by
  unfold execAfsEdge at h
  split at h
  · obtain rfl := Host.Outcome.next.inj h
    exact .refl
  · dsimp only at h
    split at h
    · obtain rfl := Host.Outcome.next.inj h
      exact ((quiet_pass ticks s).trans (quiet_monitor fun h => h)).moves
    · split at h
      · next hlock => exact (quiet_pass ticks s).moves.trans (moves_lockedEdge rfl id lanes _ hlock h)
      · next hlock =>
        obtain rfl := Host.Outcome.next.inj h
        exact ((quiet_pass ticks s).trans (quiet_freeEdge _ hlock)).moves

theorem moves_edgeWatchExpiry {env : FrameEnv} {s t : State} (h : execEdgeWatchExpiry env s = .next t) :
    Moves (.edgeWatchExpiry env) s t := by
  unfold execEdgeWatchExpiry at h
  split at h
  · obtain rfl := Host.Outcome.next.inj h
    exact .refl
  · split at h
    · obtain rfl := Host.Outcome.next.inj h
      exact .refl
    · dsimp only at h
      split at h
      · refine Relation.ReflTransGen.trans ?_ (moves_frame rfl id sampleOk_silence h)
        refine ((quiet_holdoverCheck fun hinv => ?_).trans (quiet_monitor ?_)).moves
        · simp only [monitorInv_iff, State.modMonitor_monitor, Monitor.holdover, Monitor.countBad, Monitor.markNow, Monitor.pass] at *
          grind
        · exact fun h => h
      · next hlock =>
        obtain rfl := Host.Outcome.next.inj h
        refine (quiet_monitor fun hinv => ?_).moves
        simp only [monitorInv_iff, State.modMonitor_monitor, Monitor.countBad, Monitor.markNow, Monitor.pass] at *
        grind

theorem moves_internalFrameTimer {env : FrameEnv} {s t : State} (h : execInternalFrameTimer env s = .next t) :
    Moves (.internalFrameTimer env) s t := by
  unfold execInternalFrameTimer at h
  split at h
  · obtain rfl := Host.Outcome.next.inj h
    exact .refl
  · split at h
    · obtain rfl := Host.Outcome.next.inj h
      exact .refl
    · exact (quiet_monitor id).moves.trans (moves_frame rfl id sampleOk_silence h)

theorem quiet_holdover (s : State) : Quiet c s s.holdoverCheck :=
  quiet_holdoverCheck (g := id) fun h => by
    simp only [monitorInv_iff, State.modMonitor_monitor, Monitor.holdover, id] at *
    grind

theorem quiet_lockRestored (s : State) : Quiet c s s.lockCheck :=
  quiet_lockCheck (g := id) fun h => by
    simp only [monitorInv_iff, State.modMonitor_monitor, Monitor.relock, id] at *
    grind

/-! ### The link (R182 to R187) -/

theorem quiet_toInbox (f : Frame) (s : State) : Quiet c s (s.toInbox f) := by
  unfold State.toInbox
  split
  · exact (State.PlainMove.link _).chain
  · exact quiet_raise _ _

theorem quiet_frameBegins (s : State) : Quiet c s s.frameBegins := by
  unfold State.frameBegins
  split
  · split
    · exact .refl
    · exact quiet_setReceiver _ _
  all_goals exact .refl

theorem quiet_strayByte (b : Byte) (s : State) : Quiet c s (s.strayByte b) := by
  unfold State.strayByte
  split
  · split
    · exact .refl
    · exact quiet_raise _ _
  all_goals exact .refl

theorem quiet_lenAccepted (b : Byte) (s : State) : Quiet c s (s.lenAccepted b) := by
  unfold State.lenAccepted
  split
  · split
    · exact .refl
    · exact quiet_setReceiver _ _
  all_goals exact .refl

theorem quiet_lenRejected (b : Byte) (s : State) : Quiet c s (s.lenRejected b) := by
  unfold State.lenRejected
  split
  · split
    · exact .refl
    · exact (quiet_setReceiver _ _).trans (quiet_raise _ _)
  all_goals exact .refl

theorem quiet_byteKept (b : Byte) (s : State) : Quiet c s (s.byteKept b) := by
  unfold State.byteKept
  split
  · exact .refl
  · split
    · exact quiet_setReceiver _ _
    · split
      · exact quiet_setReceiver _ _
      · exact .refl
    all_goals exact .refl

theorem quiet_frameComplete (b : Byte) (s : State) : Quiet c s (s.frameComplete b) := by
  unfold State.frameComplete
  split
  · split
    · exact .refl
    · exact (quiet_setReceiver _ _).trans (quiet_toInbox _ _)
  all_goals exact .refl

theorem quiet_deselect (s : State) : Quiet c s s.deselect := by
  unfold State.deselect
  split
  · exact .refl
  all_goals
    split
    · exact .refl
    · exact (quiet_setReceiver _ _).trans (quiet_raise _ _)

theorem quiet_replyByteSent (s : State) : Quiet c s s.replyByteSent := by
  unfold State.replyByteSent
  split
  · split
    · exact .refl
    · exact (State.PlainMove.link _).chain
  · exact .refl

theorem quiet_replySent (s : State) : Quiet c s s.replySent := by
  unfold State.replySent
  split
  · split
    · exact .refl
    · exact (State.PlainMove.link _).chain
  · exact .refl

/-! ### Requests (R189) -/

theorem State.lengthOk_of_precheck {k : Kind} {f : Frame} {s : State} (h : s.precheck k f = none) : k.lengthOk f.body = true := by
  unfold State.precheck at h
  split at h
  · assumption
  · cases h

/-- A request that passes the checks is served in the part state that stands. -/
theorem State.run_of_precheck {k : Kind} {f : Frame} {s : State} (h : s.precheck k f = none) :
    (k.servedInSetup = false → s.run ≠ none) ∧ (k = .setup → s.run = none) := by
  unfold State.precheck at h
  split at h
  · split at h
    · next hrun =>
      split at h
      · cases h
      · split at h <;> simp_all
    · next r hrun => simp_all
  · cases h

/-- A request-taken event of a row, by what its owner does once the request is taken and has passed the checks. -/
theorem moves_serve {k : Kind} {mine : Frame → Bool} {owner : Frame → State → State}
    (h : ∀ (f : Frame) (s : State), s.precheck k f = none → Moves c s (owner f s)) (s : State) :
    Moves c s (serve k mine owner s) := by
  obtain he | ⟨f, rest, -, -, -, ⟨st, -, he⟩ | ⟨hpass, he⟩⟩ := serve_cases k mine owner s
  · rw [he]
  · rw [he]
    exact ((quiet_takenInFlight s rest).trans (quiet_answer _ _ _ _)).moves
  · rw [he]
    exact (quiet_takenInFlight s rest).moves.trans (h f _ hpass)

theorem quiet_serveUnknown (s : State) : Quiet c s s.serveUnknown := by
  unfold State.serveUnknown
  split
  · exact .refl
  · next f t ht =>
    obtain ⟨rest, -, rfl⟩ := State.takeHead_cases ht
    split
    · exact (quiet_takenInFlight s rest).trans (quiet_answer _ _ _ _)
    · exact .refl

/-! #### Instance requests (chapter 04) -/

theorem quiet_answerInst (f : Frame) (o : Status × State) : Quiet c o.2 (answerInst f o) := quiet_answer _ _ _ _

theorem quiet_ownInst {act : InstNo → State → Status × State} {s : State} (h : ∀ i, Quiet c s (act i s).2) (f : Frame) :
    Quiet c s (ownInst act f s) := by
  unfold ownInst
  split
  · exact (h _).trans (quiet_answerInst _ _)
  · exact quiet_answerInst f (.badArg, s)

theorem quiet_ownLoad (f : Frame) {s : State} (hrun : s.run ≠ none) : Quiet c s (ownLoad f s) := by
  unfold ownLoad
  split
  · exact (quiet_doLoad _ _ fun h => absurd h hrun).trans (quiet_answerInst _ _)
  · exact quiet_answerInst f (.badArg, s)

theorem quiet_ownStop (f : Frame) (s : State) : Quiet c s (ownStop f s) := by
  unfold ownStop
  split
  · exact quiet_ownInst (fun i => quiet_doStopSpill i s) f
  · exact quiet_ownInst (fun i => quiet_doStopCut i s) f
  · exact quiet_answerInst f (.badArg, s)

theorem quiet_ownSet (f : Frame) (s : State) : Quiet c s (ownSet f s) := by
  unfold ownSet
  split
  · split
    · dsimp only
      split
      · exact (quiet_doSet _ _ _ _ s).trans (quiet_answer _ _ _ _)
      · exact (quiet_doSet _ _ _ _ s).trans (quiet_answerInst _ _)
    · exact quiet_answerInst f (.badArg, s)
  · exact quiet_answerInst f (.badArg, s)

theorem quiet_ownGet (f : Frame) (s : State) : Quiet c s (ownGet f s) := by
  unfold ownGet
  repeat' split
  all_goals exact quiet_answer _ _ _ _

theorem quiet_ownInstStatus (f : Frame) (s : State) : Quiet c s (ownInstStatus f s) := by
  unfold ownInstStatus
  split <;> exact quiet_answer _ _ _ _

/-! #### Cue and tempo requests (chapters 03 and 06) -/

theorem quiet_ownCueAdd (f : Frame) {s : State} (hrun : s.run ≠ none) : Quiet c s (ownCueAdd f s) := by
  unfold ownCueAdd
  split
  · exact quiet_answer _ _ _ _
  · next e he =>
    have hdomain : e.domainOk = true := by
      unfold cueEntryOf at he
      split at he
      · dsimp only at he
        split at he
        · next hok => exact Option.some.inj he ▸ hok
        · cases he
      · cases he
    split
    · next hroom => exact (State.CueMove.add e hrun hroom hdomain).chain.trans (quiet_answer _ _ _ _)
    · exact quiet_answer _ _ _ _

theorem quiet_ownGo (f : Frame) {s : State} (hrun : s.run ≠ none) : Quiet c s (ownGo f s) := by
  unfold ownGo
  split
  · exact quiet_answer _ _ _ _
  · split
    · exact quiet_answer _ _ _ _
    · next hlist => exact (State.CueMove.fire _ hrun (by simpa using hlist)).chain

theorem quiet_goPin (s : State) : Quiet c s s.goPin := by
  unfold State.goPin
  split
  · next h =>
    simp only [State.inRun, Bool.and_eq_true, Option.isSome_iff_ne_none, Bool.not_eq_true', List.isEmpty_eq_false_iff] at h
    exact (State.CueMove.fire _ h.1.1.1 h.2).chain
  · exact .refl

theorem quiet_ownTapMode (f : Frame) (s : State) : Quiet c s (ownTapMode f s) := by
  unfold ownTapMode
  split
  · exact (State.TempoMove.mode false).chain.trans (quiet_answer _ _ _ _)
  · exact (State.TempoMove.mode true).chain.trans (quiet_answer _ _ _ _)
  · exact quiet_answer _ _ _ _

/-- A TAP edge changes the tempo unit, and raises TAP_TEMPO at most. -/
theorem State.tapEdge_cases (rate : SampleRate) (s : State) :
    s.tapEdge rate = { s with tempo := (s.tapEdge rate).tempo } ∨
      ∃ k, s.tapEdge rate = State.raise k { s with tempo := (s.tapEdge rate).tempo } := by
  unfold State.tapEdge
  split
  · exact .inl rfl
  · split
    · exact .inl rfl
    · split
      · exact .inl rfl
      · exact .inr ⟨_, rfl⟩

theorem quiet_tapEdge {r : Run} {s : State} (hrun : s.run = some r) (hmode : s.tempo.tapMode = true) :
    Quiet c s (s.tapEdge r.rate) := by
  have hmove : Quiet c s { s with tempo := (s.tapEdge r.rate).tempo } := (State.TempoMove.edge r hrun hmode).chain
  obtain he | ⟨k, he⟩ := s.tapEdge_cases r.rate
  · rw [he]; exact hmove
  · rw [he]; exact hmove.trans (quiet_raise _ _)

/-! #### Memory service requests (chapter 08) -/

theorem quiet_ownMemErrors (f : Frame) (s : State) : Quiet c s (ownMemErrors f s) := by
  unfold ownMemErrors
  split
  · exact quiet_answer _ _ _ _
  · refine Relation.ReflTransGen.trans (State.PlainMove.errors ErrorRecord.reset fun h => ?_).chain (quiet_answer _ _ _ _)
    exact { h with corrected := Nat.zero_le _, uncorrectable := Nat.zero_le _, dropped := Nat.zero_le _ }
  · exact quiet_answer _ _ _ _

theorem quiet_acceptAccess (op : List Byte → Nat → AccessOp) (f : Frame) {s : State} (hrun : s.run ≠ none) :
    Quiet c s (acceptAccess op f s) := by
  unfold acceptAccess
  dsimp only
  repeat' split
  case h_2.isFalse.isFalse => exact (State.PlainMove.access _ fun h => absurd h hrun).chain
  all_goals exact quiet_answer _ _ _ _

/-! #### Library requests (chapter 07) -/

theorem moves_setLibSlot {k : SlotNo} {x : LibSlot} {s : State} (hc : changesLibrary c = true)
    (h : ∀ q, x.record = some q → (s.libSlot k).record = some q ∨ q.wf) : Moves c s (s.setLibSlot k x) :=
  .single (.library hc k x h)

/-- A record that STORE accepts is loadable. -/
theorem PresetRecord.wf_of_checkRecord {bytes : List Byte} {q : PresetRecord} (hlo : 32 ≤ bytes.length) (hhi : bytes.length ≤ 464)
    (h : checkRecord bytes = .ok q) : q.wf := by
  unfold checkRecord at h
  split at h
  · cases h
  · next hfault =>
    split at h
    · next p hp =>
      obtain rfl : _ = q := Except.ok.inj h
      obtain ⟨p', hp', hwf, hlen, -⟩ := passingRecordIsWithinLimits bytes hlo hhi hfault
      have hlines := hwf.lineCount.1
      have htaps := hwf.tapCount.1
      exact ⟨⟨by dsimp only; omega, hhi⟩, hfault, hp⟩
    · cases h

theorem moves_ownStore (hc : changesLibrary c = true) {f : Frame} (hlen : 33 ≤ f.body.length ∧ f.body.length ≤ 465) (s : State) :
    Moves c s (ownStore f s) := by
  unfold ownStore
  split
  · exact (quiet_answer _ _ _ _).moves
  · split
    · exact (quiet_answer _ _ _ _).moves
    · split
      · exact (quiet_answer _ _ _ _).moves
      · next hcheck =>
        refine (moves_setLibSlot hc fun q hq => .inr ?_).trans (quiet_answer _ _ _ _).moves
        obtain rfl := Option.some.inj hq
        refine PresetRecord.wf_of_checkRecord ?_ ?_ hcheck <;> simp <;> omega

theorem moves_ownErase (hc : changesLibrary c = true) (f : Frame) (s : State) : Moves c s (ownErase f s) := by
  unfold ownErase
  split
  · exact (quiet_answer _ _ _ _).moves
  · split
    · exact (quiet_answer _ _ _ _).moves
    · exact (moves_setLibSlot hc fun q hq => by cases hq).trans (quiet_answer _ _ _ _).moves

theorem moves_ownProtect (hc : changesLibrary c = true) (f : Frame) (s : State) : Moves c s (ownProtect f s) := by
  unfold ownProtect
  split
  · exact (quiet_answer _ _ _ _).moves
  · split
    · refine .trans (moves_setLibSlot hc fun q hq => ?_) (quiet_answer _ _ _ _).moves
      exact .inl hq
    · refine .trans (moves_setLibSlot hc fun q hq => ?_) (quiet_answer _ _ _ _).moves
      exact .inl hq
    · exact (quiet_answer _ _ _ _).moves

theorem moves_libraryRequest {taken : State → State} (h : ∀ s, Moves c s (taken s)) (s : State) :
    Moves c s (s.libraryRequest taken) := by
  obtain ⟨-, he⟩ | ⟨-, he⟩ := s.libraryRequest_cases taken
  · rw [he]; exact (quiet_applyCue s).moves.trans (h _)
  · rw [he]; exact h s

theorem quiet_ownFetch (f : Frame) (s : State) : Quiet c s (ownFetch f s) := by
  unfold ownFetch
  repeat' split
  all_goals exact quiet_answer _ _ _ _

theorem quiet_ownList (f : Frame) (s : State) : Quiet c s (ownList f s) := by
  unfold ownList
  repeat' split
  all_goals exact quiet_answer _ _ _ _

/-! #### Requests of the part and the notice unit (chapter 10) -/

theorem quiet_ownPoolStatus (f : Frame) (s : State) : Quiet c s (ownPoolStatus f s) := by
  unfold ownPoolStatus
  split <;> exact quiet_answer _ _ _ _

@[simp] theorem State.upsets_run (us : List Upset) : ∀ s : State, (s.upsets us).run = s.run := by
  induction us with
  | nil => exact fun _ => rfl
  | cons u us ih =>
    refine fun s => (ih _).trans ?_
    dsimp only [State.upset]
    split <;> rfl

@[simp] theorem State.sized_run (size : FarSize) (us : List Upset) (s : State) : (s.sized size us).run = s.run :=
  State.upsets_run us _

theorem moves_ownSetup (hc : writesMemory c = true) (env : SetupEnv) (f : Frame) {s : State} (hrun : s.run = none) :
    Moves c s (ownSetup env f s) := by
  unfold ownSetup
  split
  · next rate size pol _ _ _ =>
    have hsized : Quiet c s (s.sized size env.upsets) := quiet_sized hc size env.upsets s
    have hrunSized : (s.sized size env.upsets).run = none := (State.sized_run size env.upsets s).trans hrun
    dsimp only
    split
    · exact (hsized.moves.trans (.single (.enterRun env.ticks rate size pol hrunSized))).trans (quiet_answer _ _ _ _).moves
    · exact (hsized.trans (quiet_answer _ _ _ _)).moves
  · exact (quiet_answer _ _ _ _).moves

theorem quiet_setNotices {n : Notices} {s : State} (h : ∀ g, n.config g = s.notices.config g) : Quiet c s { s with notices := n } :=
  (State.PlainMove.notices n h).chain

@[simp] theorem State.answerGo_run (st : Status) (n : CueCounts) (s : State) : (s.answerGo st n).run = s.run := by
  unfold State.answerGo
  split <;> rfl

@[simp] theorem State.endAccess_run (st : Status) (s : State) : (s.endAccess st).run = s.run := by
  unfold State.endAccess
  split <;> rfl

theorem moves_ownSoftReset (f : Frame) (s : State) : Moves c s (ownSoftReset f s) := by
  unfold ownSoftReset
  split
  · next r hrun =>
    have hends : Quiet c s ((s.answerGo .aborted CueCounts.zero).endAccess .aborted) :=
      (quiet_answerGo _ _ s).trans (quiet_endAccess _ _)
    have hsoft : Move c _ (State.softEngine r ((s.answerGo .aborted CueCounts.zero).endAccess .aborted)) :=
      .softEngine r (by simpa using hrun)
    exact (hends.moves.tail hsoft).trans ((quiet_setNotices fun g => Notices.config_clearAll _ g).trans (quiet_answer _ _ _ _)).moves
  · exact (quiet_answer _ _ _ _).moves

/-- Clearing flags leaves every configuration (R200). -/
@[simp] theorem Notices.config_clear (es : List ClearEntry) (n : Notices) (g : Group) : (n.clear es).config g = n.config g := by
  simp [Notices.clear, Group.all]

theorem quiet_ownNoticeClear (f : Frame) (s : State) : Quiet c s (ownNoticeClear f s) := by
  unfold ownNoticeClear
  split
  · exact (quiet_setNotices fun g => Notices.config_clear _ _ g).trans (quiet_answer _ _ _ _)
  · exact quiet_answer _ _ _ _

theorem quiet_ownNoticeConfig (f : Frame) (s : State) : Quiet .noticeConfig s (ownNoticeConfig f s) := by
  unfold ownNoticeConfig
  split
  · split
    · next hpriority => exact (State.PlainMove.config rfl _ _ hpriority).chain.trans (quiet_answer _ _ _ _)
    · exact quiet_answer _ _ _ _
  · exact quiet_answer _ _ _ _

/-! ### Every command -/

/-- A request whose owner makes quiet moves. -/
theorem quiet_serve {k : Kind} {mine : Frame → Bool} {owner : Frame → State → State}
    (h : ∀ (f : Frame) (s : State), s.precheck k f = none → Quiet c s (owner f s)) (s : State) :
    Moves c s (serve k mine owner s) :=
  moves_serve (fun f s hpass => (h f s hpass).moves) s

/-- Every command is a chain of moves. -/
theorem exec_moves {s t : State} (h : exec c s = .next t) : Moves c s t := by
  have hrun {k : Kind} {f : Frame} {s : State} (hpass : s.precheck k f = none) (hk : k.servedInSetup = false) : s.run ≠ none :=
    (State.run_of_precheck hpass).1 hk
  cases c
  case afsEdge => exact moves_afsEdge h
  case edgeWatchExpiry => exact moves_edgeWatchExpiry h
  case internalFrameTimer => exact moves_internalFrameTimer h
  case tapEdge =>
    change execTapEdge s = _ at h
    unfold execTapEdge at h
    split at h
    · next r hr =>
      split at h
      · next hon =>
        obtain rfl := Host.Outcome.next.inj h
        exact (quiet_tapEdge hr (by simp_all)).moves
      · obtain rfl := Host.Outcome.next.inj h
        exact .refl
    · obtain rfl := Host.Outcome.next.inj h
      exact .refl
  case serviceEvent us =>
    change execServiceEvent us s = _ at h
    unfold execServiceEvent at h
    split at h
    · obtain rfl := Host.Outcome.next.inj h
      exact (quiet_service rfl us s).moves
    · cases h
  all_goals obtain rfl := Host.Outcome.next.inj h
  case powerUp => exact .single (.powerUp rfl)
  case resetPinAssert => exact .single (.assertReset s.near s.dram rfl (fun _ => ⟨rfl, rfl⟩) id)
  case resetPinRelease =>
    unfold State.resetRelease
    split
    · refine ((State.PlainMove.pin false).chain.trans (State.PlainMove.monitor _ ?_).chain).moves
      exact fun h => h
    · exact .refl
  case requestFrameComplete b => exact (quiet_frameComplete b s).moves
  case strayByte b => exact (quiet_strayByte b s).moves
  case lenRejected b => exact (quiet_lenRejected b s).moves
  case lselDeassert => exact (quiet_deselect s).moves
  case replySent => exact (quiet_replySent s).moves
  case frameBegins => exact (quiet_frameBegins s).moves
  case lenAccepted b => exact (quiet_lenAccepted b s).moves
  case byteKept b => exact (quiet_byteKept b s).moves
  case replyByteSent => exact (quiet_replyByteSent s).moves
  case unknownKind => exact (quiet_serveUnknown s).moves
  case identify => exact quiet_serve (fun f s _ => quiet_answer _ _ _ _) s
  case partStatus => exact quiet_serve (fun f s _ => quiet_answer _ _ _ _) s
  case setup env => exact moves_serve (fun f s hpass => moves_ownSetup rfl env f ((State.run_of_precheck hpass).2 rfl)) s
  case softReset => exact moves_serve (fun f s _ => moves_ownSoftReset f s) s
  case poolStatus => exact quiet_serve (fun f s _ => quiet_ownPoolStatus f s) s
  case store =>
    refine moves_libraryRequest (moves_serve fun f s hpass => moves_ownStore rfl ?_ s) s
    simpa [Kind.lengthOk] using State.lengthOk_of_precheck hpass
  case fetch => exact quiet_serve (fun f s _ => quiet_ownFetch f s) s
  case erase => exact moves_libraryRequest (moves_serve fun f s _ => moves_ownErase rfl f s) s
  case protect => exact moves_serve (fun f s _ => moves_ownProtect rfl f s) s
  case list => exact quiet_serve (fun f s _ => quiet_ownList f s) s
  case load => exact quiet_serve (fun f s hpass => quiet_ownLoad f (hrun hpass rfl)) s
  case unload => exact quiet_serve (fun f s _ => quiet_ownInst (fun i => quiet_doUnload i s) f) s
  case start => exact quiet_serve (fun f s _ => quiet_ownInst (fun i => quiet_doStart i s) f) s
  case stopSpill => exact quiet_serve (fun f s _ => quiet_ownStop f s) s
  case stopCut => exact quiet_serve (fun f s _ => quiet_ownStop f s) s
  case hold => exact quiet_serve (fun f s _ => quiet_ownInst (fun i => quiet_doHold i s) f) s
  case unhold => exact quiet_serve (fun f s _ => quiet_ownInst (fun i => quiet_doUnhold i s) f) s
  case set => exact quiet_serve (fun f s _ => quiet_ownSet f s) s
  case get => exact quiet_serve (fun f s _ => quiet_ownGet f s) s
  case instanceStatus => exact quiet_serve (fun f s _ => quiet_ownInstStatus f s) s
  case cueAdd => exact quiet_serve (fun f s hpass => quiet_ownCueAdd f (hrun hpass rfl)) s
  case cueClear => exact quiet_serve (fun f s _ => State.CueMove.clear.chain.trans (quiet_answer _ _ _ _)) s
  case cueList => exact quiet_serve (fun f s _ => quiet_answer _ _ _ _) s
  case go => exact quiet_serve (fun f s hpass => quiet_ownGo f (hrun hpass rfl)) s
  case goPin => exact (quiet_goPin s).moves
  case cueApplication => exact (quiet_applyCue s).moves
  case tempoSet => exact quiet_serve (fun f s _ => (State.TempoMove.set _).chain.trans (quiet_answer _ _ _ _)) s
  case tempoGet => exact quiet_serve (fun f s _ => quiet_answer _ _ _ _) s
  case tapMode => exact quiet_serve (fun f s _ => quiet_ownTapMode f s) s
  case memErrors => exact quiet_serve (fun f s _ => quiet_ownMemErrors f s) s
  case lineRead => exact quiet_serve (fun f s hpass => quiet_acceptAccess _ f (hrun hpass rfl)) s
  case lineWrite => exact quiet_serve (fun f s hpass => quiet_acceptAccess _ f (hrun hpass rfl)) s
  case noticeRead => exact quiet_serve (fun f s _ => quiet_answer _ _ _ _) s
  case noticeClear => exact quiet_serve (fun f s _ => quiet_ownNoticeClear f s) s
  case noticeConfig => exact quiet_serve (fun f s _ => quiet_ownNoticeConfig f s) s
  case holdover => exact (quiet_holdover s).moves
  case lockRestored => exact (quiet_lockRestored s).moves
  case windowEnd i => exact .single (.closeWindow i)
  case tailDecision i => exact (quiet_tailDecision i s).moves
  case release i => exact (quiet_cutRelease i s).moves

end

end Sys2Proof.Machine
end

section
/-! What every move leaves of the state, and the invariants that read single blocks: memories, memory service, monitor, ports, notices,
library, tempo unit and cue unit. -/

namespace Sys2Proof.Machine

section
variable {c : Instr} {s t : State}

/-! ### A step is a chain of moves -/

/-- A predicate that does not read the queue of commands and that every move keeps is kept by every step. -/
theorem step_keeps {P : State → Prop} (hpending : ∀ s l, P s → P { s with pending := l })
    (hmove : ∀ {c s t}, Move c s t → P s → P t) (h : step s = .next t) (hs : P s) : P t := by
  unfold step at h
  split at h
  · exact Host.Outcome.next.inj h ▸ hs
  · exact (exec_moves h).keeps hmove (hpending _ _ hs)

/-! ### What a move leaves -/

/-- The moves of instances change the instances, their lists and the pools. -/
theorem State.EngineMove.same (h : s.EngineMove t) :
    t = { s with run := t.run, instances := t.instances, queue := t.queue, spill := t.spill } := by
  cases h with
  | admission i _ _ => unfold State.admission; split <;> rfl
  | _ => rfl

/-- The return of an instance's pages leaves the setup record. -/
theorem Run.takeBack_keeps (x : Inst) (r : Run) :
    (r.takeBack x).rate = r.rate ∧ (r.takeBack x).farSize = r.farSize ∧ (r.takeBack x).polarity = r.polarity := by
  unfold Run.takeBack
  split
  · obtain ⟨hrate, hsize, hpol, -⟩ := returnLines_keeps _ r
    exact ⟨hrate, hsize, hpol⟩
  · exact ⟨rfl, rfl, rfl⟩

/-- The moves of instances leave the part state, the sample rate and the size of the FAR pool. -/
theorem State.EngineMove.run_cases (h : s.EngineMove t) :
    (t.run = none ∧ s.run = none) ∨
      ∃ r q, t.run = some r ∧ s.run = some q ∧ r.rate = q.rate ∧ r.farSize = q.farSize := by
  have same {u : State} (hu : u.run = s.run) : (u.run = none ∧ s.run = none) ∨
      ∃ r q, u.run = some r ∧ s.run = some q ∧ r.rate = q.rate ∧ r.farSize = q.farSize := by
    cases hrun : s.run with
    | none => exact .inl ⟨hu.trans hrun, rfl⟩
    | some r => exact .inr ⟨r, r, hu.trans hrun, rfl, rfl, rfl⟩
  cases h with
  | admission i _ _ =>
    unfold State.admission
    split
    · next r p hr hp =>
      obtain ⟨hrate, hsize, -⟩ := grantLines_keeps i ((fitTest p s.freeCounts).1.zip (p.lines.map LineProg.length)) 0 r
      exact .inr ⟨_, r, rfl, hr, hrate, hsize⟩
    · exact same rfl
  | release i _ =>
    cases hrun : s.run with
    | none => exact .inl ⟨by simp [hrun], rfl⟩
    | some r =>
      obtain ⟨hrate, hsize, -⟩ := Run.takeBack_keeps (s.inst i) r
      exact .inr ⟨_, r, by simp [hrun], rfl, hrate, hsize⟩
  | _ => exact same rfl

/-- What a plain move leaves. -/
theorem State.PlainMove.same (h : s.PlainMove c t) :
    t.run = s.run ∧ t.queue = s.queue ∧ t.spill = s.spill ∧ t.library = s.library ∧ t.tempo = s.tempo ∧ t.cue = s.cue := by
  cases h <;> exact ⟨rfl, rfl, rfl, rfl, rfl, rfl⟩

/-! ### Memories, memory service, monitor, ports and notices -/

theorem Move.memoryWf (h : Move c s t) (hs : Memory.wf s = true) : Memory.wf t = true := by
  cases h with
  | quiet h =>
    cases h with
    | plain h =>
      cases h with
      | memory n d _ h => exact h hs
      | _ => exact hs
    | engine h => rw [h.same]; exact hs
    | _ => exact hs
  | assertReset n d _ _ h => exact h hs
  | powerUp => rfl
  | _ => exact hs

theorem Move.serviceInv (h : Move c s t) (hs : ServiceInv s) : ServiceInv t := by
  have hempty {u : State} (hc : u.corrections = []) (he : u.errors = ErrorRecord.reset) : ServiceInv u := by
    constructor <;> simp [hc, he, ErrorRecord.reset]
  cases h with
  | quiet h =>
    cases h with
    | plain h =>
      cases h with
      | errors e h => exact h hs
      | corrections l hsub =>
        exact { hs with count := hsub.length_le.trans hs.count, distinct := hs.distinct.sublist (hsub.map _) }
      | offer a v hnew hroom _ _ =>
        refine { hs with count := ?_, distinct := ?_ }
        · simpa using hroom
        · simpa [List.nodup_append, hs.distinct] using hnew
      | link => exact ⟨hs.1, hs.2, hs.3, hs.4, hs.5⟩
      | _ => exact ⟨hs.1, hs.2, hs.3, hs.4, hs.5⟩
    | engine h => rw [h.same]; exact ⟨hs.1, hs.2, hs.3, hs.4, hs.5⟩
    | _ => exact ⟨hs.1, hs.2, hs.3, hs.4, hs.5⟩
  | softEngine | assertReset | powerUp => exact hempty rfl rfl
  | _ => exact ⟨hs.1, hs.2, hs.3, hs.4, hs.5⟩

theorem Move.monitorInv (h : Move c s t) (hs : MonitorInv s) : MonitorInv t := by
  cases h with
  | quiet h =>
    cases h with
    | plain h =>
      cases h with
      | monitor m h => exact h hs
      | _ => exact hs
    | engine h => rw [h.same]; exact hs
    | _ => exact hs
  | assertReset | powerUp => exact ⟨Nat.zero_le _, Nat.zero_le _⟩
  | _ => exact hs

theorem portsInv_reset {u : State} (h : u.ports = Ports.reset) : PortsInv u := by
  intro k
  rw [h]
  simp [Ports.reset, sampleOk_zero]

theorem Move.portsInv (h : Move c s t) (hs : PortsInv s) : PortsInv t := by
  cases h with
  | quiet h =>
    cases h with
    | plain h =>
      cases h with
      | ports p h => exact h hs
      | _ => exact hs
    | engine h => rw [h.same]; exact hs
    | _ => exact hs
  | assertReset | powerUp => exact portsInv_reset rfl
  | _ => exact hs

theorem noticesInv_reset {u : State} (h : u.notices = Notices.reset) : NoticesInv u := by
  intro g
  rw [h]
  cases g <;> decide

theorem Move.noticesInv (h : Move c s t) (hs : NoticesInv s) : NoticesInv t := by
  cases h with
  | quiet h =>
    cases h with
    | plain h =>
      cases h with
      | notices n h => exact fun g => by rw [h]; exact hs g
      | config _ g x h =>
        intro k
        rw [Notices.config_setConfig]
        split
        · exact h
        · exact hs k
      | _ => exact hs
    | engine h => rw [h.same]; exact hs
    | _ => exact hs
  | assertReset | powerUp => exact noticesInv_reset rfl
  | _ => exact hs

/-- Settles O57: every move keeps each of the five. -/
theorem plainInvariantsKept : Obligations.PlainInvariantsKept := fun _ _ h =>
  ⟨step_keeps (fun _ _ hs => hs) Move.memoryWf h, step_keeps (fun _ _ hs => ⟨hs.1, hs.2, hs.3, hs.4, hs.5⟩) Move.serviceInv h,
    step_keeps (fun _ _ hs => hs) Move.monitorInv h, step_keeps (fun _ _ hs => hs) Move.portsInv h,
    step_keeps (fun _ _ hs => hs) Move.noticesInv h⟩

/-! ### The library -/

theorem State.libSlot_congr (h : t.library = s.library) (k : SlotNo) : t.libSlot k = s.libSlot k := by
  simp [State.libSlot, h]

/-- What a move makes of a library slot: nothing, but where a request changes it or at power-up. -/
theorem Move.library_cases (h : Move c s t) :
    t.library = s.library ∨ (c = .powerUp ∧ t.library = State.reset.library) ∨
      ∃ k x, changesLibrary c = true ∧ t = s.setLibSlot k x ∧ ∀ q, x.record = some q → (s.libSlot k).record = some q ∨ q.wf := by
  cases h with
  | quiet h =>
    cases h with
    | plain h => exact .inl h.same.2.2.2.1
    | engine h => exact .inl (by rw [h.same])
    | _ => exact .inl rfl
  | library hc k x h => exact .inr (.inr ⟨k, x, hc, rfl, h⟩)
  | powerUp hc => exact .inr (.inl ⟨hc, rfl⟩)
  | _ => exact .inl rfl

theorem reset_libSlot_record (k : SlotNo) : (State.reset.libSlot k).record = none := by
  simp [State.libSlot, State.reset]

/-- Every record of a library was in it before the move, or passes the checks of STORE. -/
theorem Move.libSlot_record (h : Move c s t) {k : SlotNo} {q : PresetRecord} (hq : (t.libSlot k).record = some q) :
    (s.libSlot k).record = some q ∨ q.wf := by
  obtain he | ⟨-, he⟩ | ⟨j, x, -, rfl, hx⟩ := h.library_cases
  · exact .inl (State.libSlot_congr he k ▸ hq)
  · rw [State.libSlot_congr he, reset_libSlot_record] at hq
    cases hq
  · by_cases hkj : k = j
    · subst hkj
      exact hx q (by simpa using hq)
    · rw [State.setLibSlot_libSlot_ne hkj] at hq
      exact .inl hq

theorem Move.libraryInv (h : Move c s t) (hs : LibraryInv s) : LibraryInv t := fun k q hq =>
  (h.libSlot_record hq).elim (hs k q) id

/-- A loadable record spells a program within its limits. -/
theorem PresetRecord.wf.programWf {q : PresetRecord} (h : q.wf) : q.program.wf := by
  obtain ⟨p, hp, hwf, -⟩ := passingRecordIsWithinLimits q.bytes (by have := h.size.1; omega) h.size.2 h.passes
  obtain rfl : p = q.program := Option.some.inj (hp.symm.trans h.program)
  exact hwf

/-! ### Which commands alone change it -/

theorem Move.pending (h : Move c s t) : t.pending = s.pending := by
  cases h with
  | quiet h =>
    cases h with
    | plain h => cases h <;> rfl
    | engine h => rw [h.same]
    | _ => rfl
  | _ => rfl

theorem Move.powerUps (h : Move c s t) (hc : c ≠ .powerUp) : t.powerUps = s.powerUps := by
  cases h with
  | quiet h =>
    cases h with
    | plain h => cases h <;> rfl
    | engine h => rw [h.same]
    | _ => rfl
  | powerUp h => exact absurd h hc
  | _ => rfl

theorem Move.library_eq (h : Move c s t) (hc : c ≠ .powerUp) (hl : changesLibrary c = false) : t.library = s.library := by
  obtain he | ⟨hp, -⟩ | ⟨-, -, hlib, -⟩ := h.library_cases
  · exact he
  · exact absurd hp hc
  · simp [hl] at hlib

/-- The commands that assert RESET within a frame start are among those that write the memories. -/
theorem writesMemory_of_assertsReset (h : assertsReset c = true) (hc : c ≠ .resetPinAssert) : writesMemory c = true := by
  cases c with
  | resetPinAssert => exact absurd rfl hc
  | afsEdge | edgeWatchExpiry | internalFrameTimer => rfl
  | _ => simp [assertsReset] at h

theorem Move.memories (h : Move c s t) (hc : c ≠ .powerUp) (hw : writesMemory c = false) : t.near = s.near ∧ t.dram = s.dram := by
  cases h with
  | quiet h =>
    cases h with
    | plain h =>
      cases h with
      | memory n d hmem _ => simp [hw] at hmem
      | _ => exact ⟨rfl, rfl⟩
    | engine h => rw [h.same]; exact ⟨rfl, rfl⟩
    | _ => exact ⟨rfl, rfl⟩
  | assertReset n d hreset hkeep _ =>
    by_cases hpin : c = .resetPinAssert
    · exact hkeep hpin
    · simp [writesMemory_of_assertsReset hreset hpin] at hw
  | powerUp h => exact absurd h hc
  | _ => exact ⟨rfl, rfl⟩

theorem Move.config (h : Move c s t) (hc : c ≠ .powerUp) (hn : c ≠ .noticeConfig) (hr : assertsReset c = false) (g : Group) :
    t.notices.config g = s.notices.config g := by
  cases h with
  | quiet h =>
    cases h with
    | plain h =>
      cases h with
      | notices n h => exact h g
      | config h => exact absurd h hn
      | _ => rfl
    | engine h => rw [h.same]
    | _ => rfl
  | assertReset n d h => simp [hr] at h
  | powerUp h => exact absurd h hc
  | _ => rfl

/-- A field that every move of a command leaves is left by the command. -/
theorem Moves.field {α : Type} {f : State → α} (hmove : ∀ {s t}, Move c s t → f t = f s) (h : Moves c s t) : f t = f s :=
  h.keeps (P := fun u => f u = f s) (fun hm hs => (hmove hm).trans hs) rfl

/-- Settles O35: each of them is left by every move of every other command. -/
theorem onlyTheseCommandsChangeIt : Obligations.OnlyTheseCommandsChangeIt := by
  intro c s t h
  have hm := exec_moves h
  refine ⟨hm.field Move.pending, fun h1 h2 h3 h4 => ?_, fun h1 => hm.field fun m => m.powerUps h1, fun h1 h2 h3 h4 h5 h6 => ?_,
    fun h1 h2 h3 h4 h5 g => ?_⟩
  · have hl : changesLibrary c = false := by cases c <;> simp_all [changesLibrary]
    exact hm.field fun m => m.library_eq h4 hl
  · have hw : writesMemory c = false := by cases c <;> simp_all [writesMemory]
    exact ⟨hm.field fun m => (m.memories h1 hw).1, hm.field fun m => (m.memories h1 hw).2⟩
  · have hr : assertsReset c = false := by cases c <;> simp_all [assertsReset]
    exact hm.field (f := fun u => u.notices.config g) fun m => m.config h2 h1 hr g

/-! ### The tempo unit (R49 to R56) -/

theorem clampTempo_mem_range (v : Nat) : 3000 ≤ clampTempo v ∧ clampTempo v ≤ 30000 := by
  unfold clampTempo
  omega

theorem takeInterval_length_le {l : List Nat} (h : l.length ≤ 4) (i : Nat) : (takeInterval l i).length ≤ 4 := by
  unfold takeInterval
  dsimp only
  split <;> split <;> simp_all <;> omega

theorem mem_takeInterval {l : List Nat} {i j : Nat} (h : j ∈ takeInterval l i) : j ∈ l ∨ j = i := by
  unfold takeInterval at h
  simp only [List.mem_append, List.mem_singleton] at h
  obtain h | h := h
  · refine .inl ?_
    split at h
    · split at h
      · simp at h
      · simp at h
    · split at h
      · exact List.mem_of_mem_drop h
      · exact h
  · exact .inr h

/-- The tempo after a change of the tempo unit lies in its range where it did before (R50, R55). -/
theorem State.TempoMove.tempo {u : Tempo} (h : s.TempoMove u) (hs : 3000 ≤ s.tempo.tempo ∧ s.tempo.tempo ≤ 30000) :
    3000 ≤ u.tempo ∧ u.tempo ≤ 30000 := by
  cases h with
  | set v => exact clampTempo_mem_range v
  | mode on => unfold Tempo.setMode; split <;> exact hs
  | tick => exact hs
  | edge r =>
    unfold State.tapEdge
    split
    · exact hs
    · split
      · exact hs
      · split
        · exact hs
        · exact clampTempo_mem_range _

theorem State.TempoMove.tempoInv {u : Tempo} (h : s.TempoMove u) (hs : TempoInv s) : TempoInv { s with tempo := u } := by
  have htempo := h.tempo hs.tempo
  cases h with
  | set v => exact { hs with tempo := htempo }
  | mode on =>
    unfold Tempo.setMode at *
    split
    · exact hs
    · exact { tempo := hs.tempo, count := by simp, intervals := by simp, age := by simp, setup := by simp, off := by simp }
  | tick r hrun =>
    refine { hs with tempo := htempo, age := fun q hq a ha => ?_, setup := fun h => ?_, off := fun h => ?_ }
    · obtain rfl : r = q := Option.some.inj (hrun.symm.trans hq)
      obtain ⟨b, -, rfl⟩ := Option.map_eq_some_iff.1 ha
      exact Nat.min_le_right _ _
    · simp [hrun] at h
    · simp [Tempo.tick, hs.off h]
  | edge r hrun hmode =>
    have hoff {u : Tempo} (hu : u.tapMode = true) (h : u.tapMode = false) : u.intervals = [] ∧ u.lastTap = none := by
      simp [hu] at h
    have hsetup {u : Tempo} (h : s.run = none) : u.intervals = [] ∧ u.lastTap = none := by simp [hrun] at h
    have hage {u : Tempo} (hu : u.lastTap = some 0) (q : Run) (a : Nat) (ha : u.lastTap = some a) : a ≤ 2 * q.rate.hz + 1 := by
      obtain rfl : 0 = a := Option.some.inj (hu.symm.trans ha)
      exact Nat.zero_le _
    unfold State.tapEdge at *
    split
    · exact { hs with age := fun q _ => hage rfl q, setup := hsetup, off := hoff hmode }
    · next i hi =>
      split
      · exact hs
      · split
        · exact { tempo := hs.tempo, count := by simp [Tempo.newSequence], intervals := by simp [Tempo.newSequence],
                  age := fun q _ => hage rfl q, setup := hsetup, off := hoff hmode }
        · next hrange =>
          refine { tempo := clampTempo_mem_range _, count := takeInterval_length_le hs.count i, intervals := fun q hq j hj => ?_,
                   age := fun q _ => hage rfl q, setup := hsetup, off := hoff hmode }
          obtain rfl : r = q := Option.some.inj (hrun.symm.trans hq)
          obtain hj | rfl := mem_takeInterval hj
          · exact hs.intervals r hrun j hj
          · exact ⟨by omega, by omega⟩

theorem tempoInv_reset {u : State} (hr : u.run = none) (h : u.tempo = Tempo.reset) : TempoInv u := by
  constructor <;> simp [hr, h, Tempo.reset]

/-- The tempo unit's limits carry over to a state of the same part state and sample rate. -/
theorem TempoInv.congr (hs : TempoInv s) (htempo : t.tempo = s.tempo)
    (hrun : (t.run = none ∧ s.run = none) ∨ ∃ r q, t.run = some r ∧ s.run = some q ∧ r.rate = q.rate) : TempoInv t := by
  obtain ⟨ht, hsn⟩ | ⟨r, q, ht, hsq, hrate⟩ := hrun
  · have := hs.setup hsn
    constructor <;> simp_all [hs.tempo]
  · have hi := hs.intervals q hsq
    have ha := hs.age q hsq
    refine { tempo := htempo ▸ hs.tempo, count := htempo ▸ hs.count, intervals := fun r' hr' => ?_, age := fun r' hr' => ?_,
             setup := by simp [ht], off := htempo ▸ hs.off }
    · obtain rfl : r = r' := Option.some.inj (ht.symm.trans hr')
      rwa [htempo, hrate]
    · obtain rfl : r = r' := Option.some.inj (ht.symm.trans hr')
      rwa [htempo, hrate]

theorem Move.tempoInv (h : Move c s t) (hs : TempoInv s) : TempoInv t := by
  have same {u : State} (hu : u.run = s.run) : (u.run = none ∧ s.run = none) ∨
      ∃ r q, u.run = some r ∧ s.run = some q ∧ r.rate = q.rate := by
    cases hrun : s.run with
    | none => exact .inl ⟨hu.trans hrun, rfl⟩
    | some r => exact .inr ⟨r, r, hu.trans hrun, rfl, rfl⟩
  cases h with
  | quiet h =>
    cases h with
    | plain h =>
      obtain ⟨hrun, -, -, -, htempo, -⟩ := h.same
      exact hs.congr htempo (same hrun)
    | engine h =>
      refine hs.congr (by rw [h.same]) (h.run_cases.imp_right ?_)
      exact fun ⟨r, q, hr, hq, hrate, _⟩ => ⟨r, q, hr, hq, hrate⟩
    | tempo h => exact h.tempoInv hs
    | cue => exact hs.congr rfl (same rfl)
  | library | advance | closeWindow => exact hs.congr rfl (same rfl)
  | enterRun ticks rate size pol hrun =>
    obtain ⟨hintervals, -⟩ := hs.setup hrun
    exact { tempo := hs.tempo, count := hs.count, intervals := by simp [State.enterRun, hintervals], age := by simp [State.enterRun],
            setup := by simp [State.enterRun], off := fun _ => ⟨hintervals, rfl⟩ }
  | softEngine r hrun =>
    exact { tempo := hs.tempo, count := by simp [State.softEngine], intervals := by simp [State.softEngine],
            age := by simp [State.softEngine], setup := by simp [State.softEngine], off := fun _ => ⟨rfl, rfl⟩ }
  | assertReset => exact tempoInv_reset rfl rfl
  | powerUp => exact tempoInv_reset rfl rfl

/-! ### The cue unit (R118 to R129) -/

theorem State.CueMove.cueInv {x : Cue} (h : s.CueMove x) (hs : CueInv s) : CueInv { s with cue := x } := by
  cases h with
  | add e hrun hroom hdomain =>
    refine { hs with list := ?_, domain := fun f hf => ?_, setup := fun h => absurd h hrun }
    · simpa using hroom
    · have hdom := hs.domain f
      simp only [List.mem_append, List.mem_singleton] at hf hdom
      obtain (hf | rfl) | hf := hf
      · exact hdom (.inl hf)
      · exact hdomain
      · exact hdom (.inr hf)
  | clear =>
    exact { hs with list := by simp, domain := fun f hf => hs.domain f (List.mem_append_right _ (by simpa using hf)),
                    setup := fun h => ⟨rfl, (hs.setup h).2⟩ }
  | fire o hrun hlist =>
    exact { list := by simp [Cue.fire], fired := hs.list, domain := fun f hf => hs.domain f (List.mem_append_left _ (by simpa [Cue.fire] using hf)),
            origin := rfl, pending := .inl ⟨rfl, hlist⟩, due := by simp [Cue.fire], setup := fun h => absurd h hrun }
  | due r hrun => exact { hs with due := id, setup := fun h => by simp [hrun] at h }
  | complete =>
    exact { list := hs.list, fired := by simp, domain := fun f hf => hs.domain f (List.mem_append_left _ (by simpa using hf)),
            origin := rfl, pending := .inr ⟨rfl, rfl⟩, due := by simp, setup := fun h => ⟨(hs.setup h).1, rfl⟩ }

theorem cueInv_reset {u : State} (h : u.cue = Cue.reset) : CueInv u := by
  constructor <;> simp [h, Cue.reset]

theorem CueInv.congr (hs : CueInv s) (hcue : t.cue = s.cue) (hrun : t.run = none → s.run = none) : CueInv t :=
  { list := hcue ▸ hs.list, fired := hcue ▸ hs.fired, domain := hcue ▸ hs.domain, origin := hcue ▸ hs.origin,
    pending := hcue ▸ hs.pending, due := hcue ▸ hs.due, setup := fun h => hcue ▸ hs.setup (hrun h) }

theorem Move.cueInv (h : Move c s t) (hs : CueInv s) : CueInv t := by
  cases h with
  | quiet h =>
    cases h with
    | plain h =>
      obtain ⟨hrun, -, -, -, -, hcue⟩ := h.same
      exact hs.congr hcue fun h => hrun ▸ h
    | engine h =>
      refine hs.congr (by rw [h.same]) fun hnone => ?_
      obtain ⟨-, hrun⟩ | ⟨r, q, ht, -⟩ := h.run_cases
      · exact hrun
      · simp [ht] at hnone
    | tempo => exact hs.congr rfl id
    | cue h => exact h.cueInv hs
  | library | advance | closeWindow => exact hs.congr rfl id
  | enterRun => exact hs.congr rfl fun h => by simp [State.enterRun] at h
  | softEngine | assertReset | powerUp => exact cueInv_reset rfl

end

end Sys2Proof.Machine
end

section
/-! The link's invariant: a place of the outbox is reserved for each request in flight, and one more for a request while it is served
(R186, R189). -/

namespace Sys2Proof.Machine

/-- The link while `n` places are reserved for requests being served, beside those of the requests in flight. -/
structure ServingInv (n : Nat) (s : State) : Prop where
  inbox    : s.link.inbox.length ≤ 2
  outbox   : s.link.sendOrder.length + s.link.reserved ≤ 4
  reserved : s.link.reserved = s.inFlight + n
  origin   : s.cue.pendingFlag = s.cue.origin.isSome
  head     : s.link.headWf
  receiver : s.link.receiver.wf

theorem linkInv_iff (s : State) : LinkInv s ↔ ServingInv 0 s :=
  ⟨fun h => ⟨h.inbox, h.outbox, h.reserved, h.origin, h.head, h.receiver⟩,
    fun h => ⟨h.inbox, h.outbox, h.reserved, h.origin, h.head, h.receiver⟩⟩

/-- What keeps the link in order, whatever is being served. -/
def KeepsLink (s t : State) : Prop := ∀ n, ServingInv n s → ServingInv n t

theorem KeepsLink.refl (s : State) : KeepsLink s s := fun _ h => h

theorem KeepsLink.trans {s t u : State} (h : KeepsLink s t) (g : KeepsLink t u) : KeepsLink s u := fun n hs => g n (h n hs)

section
variable {n : Nat} {s t : State}

/-! ### Places of the outbox -/

theorem Link.headWf_append (l : Link) {m : Link} {r : Reply} (hl : l.headWf) (hsend : m.sendOrder = l.sendOrder ++ [r])
    (hhead : m.headSent = l.headSent) : m.headWf := by
  unfold Link.headWf at *
  cases horder : l.sendOrder with
  | nil =>
    rw [horder] at hl hsend
    simp only [hsend, List.nil_append, hhead, hl]
    simp [Reply.bytes]
  | cons q rest =>
    rw [horder] at hl hsend
    simpa only [hsend, List.cons_append, hhead] using hl

/-- A reply is placed in the place of a request being served. -/
theorem ServingInv.place (h : ServingInv (n + 1) s) (r : Reply) : ServingInv n (s.place r) where
  inbox := h.inbox
  outbox := by
    have hout := h.outbox
    have hres := h.reserved
    simp only [State.place_link, List.length_append, List.length_singleton]
    omega
  reserved := by
    have hres := h.reserved
    have hfly : (s.place r).inFlight = s.inFlight := rfl
    simp only [State.place_link]
    omega
  origin := h.origin
  head := s.link.headWf_append h.head rfl rfl
  receiver := h.receiver

theorem ServingInv.answer (h : ServingInv (n + 1) s) (f : Frame) (st : Status) (b : List Byte) : ServingInv n (s.answer f st b) :=
  h.place _

/-- What the invariant reads. -/
theorem ServingInv.congr (h : ServingInv n s) (hlink : t.link = s.link := by rfl)
    (horigin : t.cue.origin = s.cue.origin := by rfl) (hflag : t.cue.pendingFlag = s.cue.pendingFlag := by rfl)
    (haccess : t.access.isSome = s.access.isSome := by rfl) : ServingInv n t := by
  have hfly : t.inFlight = s.inFlight := by simp only [State.inFlight, horigin, haccess]
  exact ⟨hlink ▸ h.inbox, hlink ▸ h.outbox, by rw [hlink, hfly]; exact h.reserved, by rw [hflag, horigin]; exact h.origin,
    hlink ▸ h.head, hlink ▸ h.receiver⟩

theorem keepsLink_of_same (hlink : t.link = s.link := by rfl) (hcue : t.cue = s.cue := by rfl)
    (haccess : t.access = s.access := by rfl) : KeepsLink s t :=
  fun _ h => h.congr hlink (by rw [hcue]) (by rw [hcue]) (by rw [haccess])

/-- The access in flight given up leaves its place to a reply. -/
theorem ServingInv.dropAccess (h : ServingInv n s) (haccess : s.access.isSome = true) : ServingInv (n + 1) { s with access := none } :=
  have hres : s.link.reserved = State.inFlight { s with access := none } + (n + 1) := by
    have hres := h.reserved
    simp only [State.inFlight, haccess, if_true] at hres
    simp only [State.inFlight, Option.isSome_none, Bool.false_eq_true, if_false]
    omega
  { h with reserved := hres }

theorem keepsLink_endAccess (st : Status) (s : State) : KeepsLink s (s.endAccess st) := by
  intro n h
  cases haccess : s.access with
  | none => rwa [State.endAccess_none st haccess]
  | some a =>
    rw [State.endAccess_some st haccess]
    exact (h.dropAccess (by simp [haccess])).place _

/-- The cue's origin cleared: a GO in flight leaves its place to a reply. -/
theorem ServingInv.answerGo (h : ServingInv n s) (st : Status) (k : CueCounts) {x : Cue} (horigin : x.origin = none)
    (hflag : x.pendingFlag = false) : ServingInv n { s.answerGo st k with cue := x } := by
  have hclear (m : Nat) (hm : s.link.reserved = (if s.access.isSome then 1 else 0) + m) : ServingInv m { s with cue := x } :=
    { h with reserved := by simpa only [State.inFlight, horigin, Nat.zero_add] using hm, origin := by simp [horigin, hflag] }
  have hres := h.reserved
  unfold State.inFlight at hres
  unfold State.answerGo
  split
  · next tag ho =>
    simp only [ho] at hres
    exact (hclear (n + 1) (by omega)).place _
  · next ho => simp only [ho] at hres; exact hclear n (by omega)
  · next ho => simp only [ho] at hres; exact hclear n (by omega)

/-! ### Cue entries, the application event and the admission unit -/

theorem State.OnlyAborts.keepsLink (h : s.OnlyAborts t) : KeepsLink s t := by
  intro n hs
  obtain ⟨hlink, haccess⟩ | ⟨a, r, hsome, hnone, hlink⟩ := h.link
  · exact keepsLink_of_same hlink h.cue haccess n hs
  · refine ((hs.dropAccess (by simp [hsome])).place r).congr hlink ?_ ?_ ?_ <;> simp [h.cue, hnone]

theorem keepsLink_completeCue (k : CueCounts) (s : State) : KeepsLink s (s.completeCue k) := fun _ h =>
  (h.answerGo .ok k (x := { (s.answerGo .ok k).cue with fired := [], pendingFlag := false, origin := none, due := false })
    rfl rfl).congr

theorem keepsLink_applyCue (s : State) : KeepsLink s s.applyCue := by
  unfold State.applyCue
  split
  · exact (applyEntries_onlyAborts _ _ _ s).keepsLink.trans (keepsLink_completeCue _ _)
  · exact .refl s

/-! ### The service event -/

theorem keepsLink_upsets (us : List Upset) : ∀ s : State, KeepsLink s (s.upsets us) := by
  induction us with
  | nil => exact KeepsLink.refl
  | cons u us ih =>
    intro s
    refine KeepsLink.trans ?_ (ih (s.upset u))
    dsimp only [State.upset]
    split <;> exact keepsLink_of_same

theorem keepsLink_keepAccess {a : LineAccess} (hs : s.access.isSome = true) : KeepsLink s (s.keepAccess a) := by
  have hset : KeepsLink s { s with access := some a } := fun _ h => h.congr (haccess := by simp [hs])
  unfold State.keepAccess
  split
  · exact hset.trans (keepsLink_endAccess _ _)
  · exact hset

theorem serveNearWords_linkCue (n : Nat) : ∀ (a : LineAccess) (s : State),
    (serveNearWords n a s).2.link = s.link ∧ (serveNearWords n a s).2.cue = s.cue := by
  induction n with
  | zero => exact fun _ _ => ⟨rfl, rfl⟩
  | succ n ih =>
    intro a s
    obtain ⟨hlink, hcue⟩ := ih (serveNearWord a s).1 (serveNearWord a s).2
    have hword : (serveNearWord a s).2.link = s.link ∧ (serveNearWord a s).2.cue = s.cue := by
      unfold serveNearWord
      split <;> exact ⟨rfl, rfl⟩
    exact ⟨hlink.trans hword.1, hcue.trans hword.2⟩

theorem keepsLink_serveNear (s : State) : KeepsLink s s.serveNear := by
  unfold State.serveNear
  split
  · next a ha =>
    split
    · obtain ⟨hlink, hcue⟩ := serveNearWords_linkCue (a.positions.length - a.served) a s
      exact (keepsLink_of_same hlink hcue (serveNearWords_access _ _ _)).trans
        (keepsLink_keepAccess (by simp [ha]))
    · exact .refl s
  · exact .refl s

theorem State.offer_cue (a : Nat) (v : Int) (s : State) : (s.offer a v).cue = s.cue := by
  obtain ⟨-, h⟩ | ⟨-, -, h⟩ | ⟨-, -, h⟩ := State.offer_cases a v s <;> rw [h] <;> rfl

theorem serveFarWord_linkCue (a : LineAccess) (s : State) :
    (serveFarWord a s).2.link = s.link ∧ (serveFarWord a s).2.cue = s.cue := by
  unfold serveFarWord
  dsimp only
  split
  · split
    · exact ⟨rfl, rfl⟩
    · exact ⟨(State.offer_keeps _ _ _).2.2.2.2.2, State.offer_cue _ _ _⟩
    · exact ⟨rfl, rfl⟩
  · exact ⟨rfl, rfl⟩

theorem keepsLink_serveSlot (s : State) : KeepsLink s s.serveSlot := by
  unfold State.serveSlot
  split
  · exact keepsLink_of_same
  · split
    · next a ha =>
      split
      · obtain ⟨hlink, hcue⟩ := serveFarWord_linkCue a s
        exact (keepsLink_of_same hlink hcue (serveFarWord_access a s)).trans (keepsLink_keepAccess (by simp [ha]))
      · exact .refl s
    · exact .refl s

theorem keepsLink_serveSlots (n : Nat) : ∀ s : State, KeepsLink s (serveSlots n s) := by
  induction n with
  | zero => exact KeepsLink.refl
  | succ n ih =>
    intro s
    simp only [serveSlots]
    split
    · exact (keepsLink_serveSlot s).trans (ih _)
    · exact .refl s

theorem keepsLink_service (us : List Upset) (s : State) : KeepsLink s (s.service us) := by
  unfold State.service
  split
  · refine ((keepsLink_upsets us s).trans ?_).trans (keepsLink_serveSlots _ _)
    exact KeepsLink.trans keepsLink_of_same (keepsLink_serveNear _)
  · exact .refl s

/-! ### Frame starts -/

theorem keepsLink_overdueDecisions (l : List InstNo) : ∀ s : State, KeepsLink s (l.foldl State.overdueDecision s) := by
  induction l with
  | nil => exact KeepsLink.refl
  | cons i l ih =>
    intro s
    refine KeepsLink.trans ?_ (ih (s.overdueDecision i))
    unfold State.overdueDecision
    split
    · split
      · exact keepsLink_of_same (State.tailDecision_link i s) (State.tailDecision_cue i s) (State.tailDecision_access i s)
      · exact .refl s
    · exact .refl s

theorem keepsLink_transmit (s : State) : KeepsLink s s.transmit := by
  unfold State.transmit
  split
  · dsimp only
    split <;> exact keepsLink_of_same
  · exact keepsLink_of_same

theorem keepsLink_openFrame (inputs : Vector Int 32) (env : FrameEnv) (s : State) : KeepsLink s (s.openFrame inputs env) := by
  have hopen : KeepsLink s ((s.finishFrame env.order).upsets env.upsets).transmit :=
    ((((keepsLink_overdueDecisions _ s).trans (keepsLink_service _ _)).trans (keepsLink_applyCue _)).trans
      (keepsLink_upsets _ _)).trans (keepsLink_transmit _)
  unfold State.openFrame
  dsimp only
  split
  · exact hopen.trans (keepsLink_of_same)
  · exact hopen.trans fun _ h => h.congr (haccess := by simp [State.markFrame])

theorem keepsLink_wholeFrame (inputs : Vector Int 32) (env : FrameEnv) (s : State) : KeepsLink s (s.wholeFrame inputs env) := by
  have hopen := keepsLink_openFrame inputs env s
  unfold State.wholeFrame
  dsimp only
  split
  · exact hopen.trans (keepsLink_of_same)
  · next r _ =>
    have hall := (processAll_keeps r.rate env.order (s.openFrame inputs env)).1
    exact hopen.trans (keepsLink_of_same hall.link hall.cue hall.access)

theorem servingInv_reset (hlink : t.link = Link.reset) (hcue : t.cue = Cue.reset) (haccess : t.access = none) : ServingInv 0 t := by
  constructor <;> simp [hlink, hcue, haccess, Link.reset, Cue.reset, State.inFlight, Link.headWf, Receiver.wf]

theorem servingInv_frame {inputs : Vector Int 32} {env : FrameEnv} (hs : ServingInv 0 s) (h : s.frame inputs env = .next t) :
    ServingInv 0 t := by
  unfold State.frame at h
  split at h
  · obtain rfl := Host.Outcome.next.inj h
    cases hcut : env.cut with
    | none => rw [State.frameStart_whole hcut]; exact keepsLink_wholeFrame inputs env s 0 hs
    | some k =>
      rw [State.frameStart_cut hcut]
      obtain ⟨-, h⟩ | ⟨r, -, h⟩ := State.cutFrameStart_cases inputs k env s <;> rw [h] <;> exact servingInv_reset rfl rfl rfl
  · cases h

/-! ### Edges, expiries and the timer -/

theorem keepsLink_holdoverCheck (s : State) : KeepsLink s s.holdoverCheck := by
  unfold State.holdoverCheck
  split <;> exact keepsLink_of_same

theorem keepsLink_lockCheck (s : State) : KeepsLink s s.lockCheck := by
  unfold State.lockCheck
  split <;> exact keepsLink_of_same

theorem keepsLink_modMonitor (g : Monitor → Monitor) (s : State) : KeepsLink s (s.modMonitor g) := keepsLink_of_same

theorem servingInv_afsEdge {ticks : Nat} {lanes : InputLanes} {env : FrameEnv} (hs : ServingInv 0 s)
    (h : execAfsEdge ticks lanes env s = .next t) : ServingInv 0 t := by
  have hpass := keepsLink_modMonitor (Monitor.pass ticks) s 0 hs
  unfold execAfsEdge at h
  split at h
  · exact Host.Outcome.next.inj h ▸ hs
  · dsimp only at h
    split at h
    · exact Host.Outcome.next.inj h ▸ keepsLink_modMonitor _ _ 0 hpass
    · split at h
      · unfold State.lockedEdge at h
        split at h
        · exact servingInv_frame (keepsLink_modMonitor _ _ 0 hpass) h
        · exact Host.Outcome.next.inj h ▸ keepsLink_holdoverCheck _ 0 (keepsLink_modMonitor _ _ 0 hpass)
      · exact Host.Outcome.next.inj h ▸ keepsLink_lockCheck _ 0 (keepsLink_modMonitor _ _ 0 hpass)

theorem servingInv_edgeWatchExpiry {env : FrameEnv} (hs : ServingInv 0 s) (h : execEdgeWatchExpiry env s = .next t) :
    ServingInv 0 t := by
  unfold execEdgeWatchExpiry at h
  split at h
  · exact Host.Outcome.next.inj h ▸ hs
  · split at h
    · exact Host.Outcome.next.inj h ▸ hs
    · dsimp only at h
      have hcount := keepsLink_modMonitor (fun m => ((m.pass (ticksLeft s.clockRate.watch ‹Nat›)).countBad).markNow) s 0 hs
      split at h
      · exact servingInv_frame (keepsLink_modMonitor _ _ 0 (keepsLink_holdoverCheck _ 0 hcount)) h
      · exact Host.Outcome.next.inj h ▸ hcount

theorem servingInv_internalFrameTimer {env : FrameEnv} (hs : ServingInv 0 s) (h : execInternalFrameTimer env s = .next t) :
    ServingInv 0 t := by
  unfold execInternalFrameTimer at h
  split at h
  · exact Host.Outcome.next.inj h ▸ hs
  · split at h
    · exact Host.Outcome.next.inj h ▸ hs
    · exact servingInv_frame (keepsLink_modMonitor _ _ 0 hs) h

/-! ### Bytes of the link (R183 to R187) -/

theorem ServingInv.setReceiver (hs : ServingInv n s) {r : Receiver} (hr : r.wf) : ServingInv n (s.setReceiver r) :=
  { hs with receiver := hr }

theorem ServingInv.raise (hs : ServingInv n s) (k : Condition) : ServingInv n (s.raise k) :=
  hs.congr

theorem ServingInv.toInbox (hs : ServingInv n s) (f : Frame) : ServingInv n (s.toInbox f) := by
  unfold State.toInbox
  split
  · next hroom =>
    refine { hs with inbox := ?_ }
    simp only [inboxPlaces] at hroom
    simp only [List.length_append, List.length_singleton]
    omega
  · exact hs.raise _

theorem ServingInv.frameBegins (hs : ServingInv n s) : ServingInv n s.frameBegins := by
  unfold State.frameBegins
  split
  · split
    · exact hs
    · exact hs.setReceiver (r := .length none) trivial
  all_goals exact hs

theorem ServingInv.strayByte (hs : ServingInv n s) (b : Byte) : ServingInv n (s.strayByte b) := by
  unfold State.strayByte
  split
  · split
    · exact hs
    · exact hs.raise _
  all_goals exact hs

theorem ServingInv.lenAccepted (hs : ServingInv n s) (b : Byte) : ServingInv n (s.lenAccepted b) := by
  unfold State.lenAccepted
  split
  · split
    · exact hs
    · next hlen =>
      simp only [lenOk, Bool.or_eq_true, Bool.not_eq_true', decide_eq_false_iff_not, not_or, not_not] at hlen
      refine hs.setReceiver ?_
      simp only [Receiver.wf, List.length_nil]
      omega
  all_goals exact hs

theorem ServingInv.lenRejected (hs : ServingInv n s) (b : Byte) : ServingInv n (s.lenRejected b) := by
  unfold State.lenRejected
  split
  · split
    · exact hs
    · exact (hs.setReceiver (r := .hunting) trivial).raise _
  all_goals exact hs

theorem ServingInv.byteKept (hs : ServingInv n s) (b : Byte) : ServingInv n (s.byteKept b) := by
  have hwf := hs.receiver
  unfold State.byteKept
  split
  · exact hs
  · split
    · exact hs.setReceiver (r := .length (some b)) trivial
    · next m kept hr =>
      split
      · refine hs.setReceiver ?_
        simp only [hr, Receiver.wf] at hwf
        simp only [Receiver.wf, List.length_append, List.length_singleton]
        omega
      · exact hs
    all_goals exact hs

theorem ServingInv.frameComplete (hs : ServingInv n s) (b : Byte) : ServingInv n (s.frameComplete b) := by
  unfold State.frameComplete
  split
  · split
    · exact hs
    · exact (hs.setReceiver (r := .hunting) trivial).toInbox _
  all_goals exact hs

theorem ServingInv.deselect (hs : ServingInv n s) : ServingInv n s.deselect := by
  unfold State.deselect
  split
  · exact hs
  all_goals
    split
    · exact hs
    · exact (hs.setReceiver (r := .hunting) trivial).raise _

theorem ServingInv.replyByteSent (hs : ServingInv n s) : ServingInv n s.replyByteSent := by
  unfold State.replyByteSent
  split
  · next r rest horder =>
    split
    · exact hs
    · next hmore =>
      simp only [Bool.or_eq_true, decide_eq_true_eq, not_or, not_le] at hmore
      refine { hs with head := ?_ }
      simp only [Link.headWf, horder]
      omega
  · exact hs

theorem ServingInv.replySent (hs : ServingInv n s) : ServingInv n s.replySent := by
  unfold State.replySent
  split
  · next r rest horder =>
    split
    · exact hs
    · refine { hs with outbox := ?_, head := ?_ }
      · have hout := hs.outbox
        simp only [horder, List.length_cons] at hout
        dsimp only
        omega
      · cases rest <;> simp [Link.headWf, Reply.bytes]
  · exact hs

/-! ### Requests (R189) -/

/-- A request taken has a place reserved for it. -/
theorem ServingInv.takenInFlight {f : Frame} {rest : List Frame} (htake : CanTake s f rest) (hs : ServingInv n s) :
    ServingInv (n + 1) (s.takenInFlight rest) := by
  have hin := hs.inbox
  have hres := hs.reserved
  have hplace := htake.place
  have hfly : (s.takenInFlight rest).inFlight = s.inFlight := rfl
  rw [htake.head, List.length_cons] at hin
  exact { hs with
    inbox := by simp only [State.takenInFlight]; omega
    outbox := by simp only [State.takenInFlight]; omega
    reserved := by simp only [hfly]; simp only [State.takenInFlight]; omega }

/-- A request-taken event keeps the link in order where its owner leaves one place fewer reserved. -/
theorem servingInv_serve {k : Kind} {mine : Frame → Bool} {owner : Frame → State → State}
    (h : ∀ (f : Frame) {s : State}, ServingInv 1 s → ServingInv 0 (owner f s)) (hs : ServingInv 0 s) :
    ServingInv 0 (serve k mine owner s) := by
  obtain he | ⟨f, rest, htake, -, -, ⟨st, -, he⟩ | ⟨-, he⟩⟩ := serve_cases k mine owner s
  · rwa [he]
  · rw [he]; exact (hs.takenInFlight htake).answer f st []
  · rw [he]; exact h f (hs.takenInFlight htake)

theorem ServingInv.serveUnknown (hs : ServingInv 0 s) : ServingInv 0 s.serveUnknown := by
  unfold State.serveUnknown
  split
  · exact hs
  · next f t ht =>
    obtain ⟨rest, htake, rfl⟩ := State.takeHead_cases ht
    split
    · exact (hs.takenInFlight htake).answer _ _ _
    · exact hs

theorem keepsLink_doLoad (i : InstNo) (k : SlotNo) (s : State) : KeepsLink s (s.doLoad i k).2 := by
  unfold State.doLoad
  repeat' split
  all_goals exact keepsLink_of_same

/-- The outcomes that a cue entry and an instance request share. -/
theorem keepsLink_applyEntry (a : CueAction) (i : InstNo) (s : State) :
    KeepsLink s (applyEntry { action := a, inst := i, slot := 0, ident := 0, index := 0, value := 0 } s).2 :=
  (applyEntry_onlyAborts _ s).keepsLink

theorem keepsLink_doSet (i : InstNo) (d : Ident) (k : Nat) (v : Int) (s : State) : KeepsLink s (s.doSet i d k v).2 := by
  unfold State.doSet
  repeat' split
  all_goals exact keepsLink_of_same

theorem keepsLink_doUnload (i : InstNo) (s : State) : KeepsLink s (s.doUnload i).2 := by
  unfold State.doUnload
  split <;> exact keepsLink_of_same

theorem ServingInv.ownInst {act : InstNo → State → Status × State} (hact : ∀ i, KeepsLink s (act i s).2) (f : Frame)
    (hs : ServingInv 1 s) : ServingInv 0 (ownInst act f s) := by
  unfold Machine.ownInst
  split
  · exact (hact _ 1 hs).answer _ _ _
  · exact hs.answer _ _ _

theorem ServingInv.ownStop (f : Frame) (hs : ServingInv 1 s) : ServingInv 0 (ownStop f s) := by
  unfold Machine.ownStop
  split
  · exact hs.ownInst (fun i => keepsLink_applyEntry .stopSpill i s) f
  · exact hs.ownInst (fun i => keepsLink_applyEntry .stopCut i s) f
  · exact hs.answer _ _ _

theorem ServingInv.ownLoad (f : Frame) (hs : ServingInv 1 s) : ServingInv 0 (ownLoad f s) := by
  unfold Machine.ownLoad
  split
  · exact (keepsLink_doLoad _ _ s 1 hs).answer _ _ _
  · exact hs.answer _ _ _

theorem ServingInv.ownSet (f : Frame) (hs : ServingInv 1 s) : ServingInv 0 (ownSet f s) := by
  unfold Machine.ownSet
  split
  · split
    · dsimp only
      split <;> exact (keepsLink_doSet _ _ _ _ s 1 hs).answer _ _ _
    · exact hs.answer _ _ _
  · exact hs.answer _ _ _

/-- A GO fired stays in flight: its place is that of its origin. -/
theorem ServingInv.ownGo (f : Frame) (hs : ServingInv 1 s) : ServingInv 0 (ownGo f s) := by
  unfold Machine.ownGo
  split
  · exact hs.answer _ _ _
  · next hflag =>
    split
    · exact hs.answer _ _ _
    · have hnone : s.cue.origin = none := by simpa [hs.origin] using hflag
      have hres := hs.reserved
      simp only [State.inFlight, hnone] at hres
      refine { hs with reserved := ?_, origin := rfl }
      simp only [State.inFlight, Cue.fire]
      omega

theorem ServingInv.goPin (hs : ServingInv n s) : ServingInv n s.goPin := by
  unfold State.goPin
  split
  · next h =>
    simp only [Bool.and_eq_true, Bool.not_eq_true'] at h
    have hnone : s.cue.origin = none := by simpa [hs.origin] using h.1.2
    have hres := hs.reserved
    simp only [State.inFlight, hnone] at hres
    exact { hs with reserved := by simpa only [State.inFlight, Cue.fire] using hres, origin := rfl }
  · exact hs

/-- An accepted line access stays in flight in its place. -/
theorem ServingInv.acceptAccess (op : List Byte → Nat → AccessOp) (f : Frame) (hs : ServingInv 1 s) :
    ServingInv 0 (acceptAccess op f s) := by
  unfold Machine.acceptAccess
  dsimp only
  repeat' split
  case h_2.isFalse.isFalse hidle =>
    have hres := hs.reserved
    simp only [State.inFlight, hidle, Bool.false_eq_true, if_false] at hres
    refine { hs with reserved := ?_ }
    simp only [State.inFlight, Option.isSome_some, if_true]
    omega
  all_goals exact hs.answer _ _ _

theorem ServingInv.ownSoftReset (f : Frame) (hs : ServingInv 1 s) : ServingInv 0 (ownSoftReset f s) := by
  unfold Machine.ownSoftReset
  split
  · have hgo := hs.answerGo .aborted CueCounts.zero (x := Cue.reset) rfl rfl
    have hend := keepsLink_endAccess .aborted _ 1 hgo
    have hlink : (State.endAccess .aborted { s.answerGo .aborted CueCounts.zero with cue := Cue.reset }).link =
        ((s.answerGo .aborted CueCounts.zero).endAccess .aborted).link := by
      unfold State.endAccess
      dsimp only
      split <;> rfl
    have hnone : (State.endAccess .aborted { s.answerGo .aborted CueCounts.zero with cue := Cue.reset }).access = none := by
      unfold State.endAccess
      dsimp only
      split <;> simp_all
    have horigin : (State.endAccess .aborted { s.answerGo .aborted CueCounts.zero with cue := Cue.reset }).cue = Cue.reset := by
      unfold State.endAccess
      dsimp only
      split <;> rfl
    dsimp only
    refine ServingInv.answer (hend.congr ?_ ?_ ?_ ?_) _ _ _
    · exact hlink.symm
    · rw [horigin]; rfl
    · rw [horigin]; rfl
    · rw [hnone]; rfl
  · exact hs.answer _ _ _

theorem ServingInv.ownSetup (env : SetupEnv) (f : Frame) (hs : ServingInv 1 s) : ServingInv 0 (ownSetup env f s) := by
  unfold Machine.ownSetup
  split
  · next rate size pol _ _ _ =>
    have hsized : ServingInv 1 (s.sized size env.upsets) :=
      keepsLink_upsets env.upsets _ 1 hs.congr
    dsimp only
    split
    · refine ServingInv.answer ?_ _ _ _
      exact ⟨hsized.inbox, hsized.outbox, hsized.reserved, hsized.origin, hsized.head, hsized.receiver⟩
    · exact hsized.answer _ _ _
  · exact hs.answer _ _ _

theorem ServingInv.libraryRequest {taken : State → State} (h : ∀ {s : State}, ServingInv 0 s → ServingInv 0 (taken s))
    (hs : ServingInv 0 s) : ServingInv 0 (s.libraryRequest taken) := by
  obtain ⟨-, he⟩ | ⟨-, he⟩ := s.libraryRequest_cases taken
  · rw [he]; exact h (keepsLink_applyCue s 0 hs)
  · rw [he]; exact h hs

end

/-! ### Every command -/

theorem exec_servingInv {c : Instr} {s t : State} (hs : ServingInv 0 s) (h : exec c s = .next t) : ServingInv 0 t := by
  cases c
  case afsEdge => exact servingInv_afsEdge hs h
  case edgeWatchExpiry => exact servingInv_edgeWatchExpiry hs h
  case internalFrameTimer => exact servingInv_internalFrameTimer hs h
  case tapEdge =>
    change execTapEdge s = _ at h
    unfold execTapEdge at h
    split at h
    · next r _ =>
      split at h
      · obtain rfl := Host.Outcome.next.inj h
        obtain he | ⟨k, he⟩ := s.tapEdge_cases r.rate <;> rw [he] <;> exact hs.congr
      · exact Host.Outcome.next.inj h ▸ hs
    · exact Host.Outcome.next.inj h ▸ hs
  case serviceEvent us =>
    change execServiceEvent us s = _ at h
    unfold execServiceEvent at h
    split at h
    · exact Host.Outcome.next.inj h ▸ keepsLink_service us s 0 hs
    · cases h
  all_goals obtain rfl := Host.Outcome.next.inj h
  case powerUp => exact servingInv_reset rfl rfl rfl
  case resetPinAssert => exact servingInv_reset rfl rfl rfl
  case resetPinRelease =>
    unfold State.resetRelease
    split <;> exact hs.congr
  case requestFrameComplete b => exact hs.frameComplete b
  case strayByte b => exact hs.strayByte b
  case lenRejected b => exact hs.lenRejected b
  case lselDeassert => exact hs.deselect
  case replySent => exact hs.replySent
  case frameBegins => exact hs.frameBegins
  case lenAccepted b => exact hs.lenAccepted b
  case byteKept b => exact hs.byteKept b
  case replyByteSent => exact hs.replyByteSent
  case unknownKind => exact hs.serveUnknown
  case setup env => exact servingInv_serve (fun f _ h => h.ownSetup env f) hs
  case softReset => exact servingInv_serve (fun f _ h => h.ownSoftReset f) hs
  case load => exact servingInv_serve (fun f _ h => h.ownLoad f) hs
  case unload => exact servingInv_serve (fun f s h => h.ownInst (fun i => keepsLink_doUnload i s) f) hs
  case start => exact servingInv_serve (fun f s h => h.ownInst (fun i => keepsLink_applyEntry .start i s) f) hs
  case stopSpill => exact servingInv_serve (fun f _ h => h.ownStop f) hs
  case stopCut => exact servingInv_serve (fun f _ h => h.ownStop f) hs
  case hold => exact servingInv_serve (fun f s h => h.ownInst (fun i => keepsLink_applyEntry .hold i s) f) hs
  case unhold => exact servingInv_serve (fun f s h => h.ownInst (fun i => keepsLink_applyEntry .unhold i s) f) hs
  case set => exact servingInv_serve (fun f _ h => h.ownSet f) hs
  case go => exact servingInv_serve (fun f _ h => h.ownGo f) hs
  case goPin => exact hs.goPin
  case cueApplication => exact keepsLink_applyCue s 0 hs
  case lineRead => exact servingInv_serve (fun f _ h => h.acceptAccess _ f) hs
  case lineWrite => exact servingInv_serve (fun f _ h => h.acceptAccess _ f) hs
  case holdover => exact keepsLink_holdoverCheck s 0 hs
  case lockRestored => exact keepsLink_lockCheck s 0 hs
  case windowEnd i => exact hs.congr
  case tailDecision i =>
    exact keepsLink_of_same (State.tailDecision_link i s) (State.tailDecision_cue i s) (State.tailDecision_access i s) 0 hs
  case release i =>
    exact keepsLink_of_same (State.cutRelease_link i s) (State.cutRelease_cue i s) (State.cutRelease_access i s) 0 hs
  case store =>
    refine hs.libraryRequest fun h => servingInv_serve (fun f s h => ?_) h
    unfold ownStore
    repeat' split
    all_goals exact h.congr.answer _ _ _
  case erase =>
    refine hs.libraryRequest fun h => servingInv_serve (fun f s h => ?_) h
    unfold ownErase
    repeat' split
    all_goals exact h.congr.answer _ _ _
  case cueClear =>
    refine servingInv_serve (fun f s h => ?_) hs
    exact (h.congr (t := { s with cue := { s.cue with list := [] } }) rfl rfl rfl rfl).answer _ _ _
  case cueAdd =>
    refine servingInv_serve (fun f s h => ?_) hs
    unfold ownCueAdd
    repeat' split
    · exact h.answer _ _ _
    · next e _ _ => exact (h.congr (t := { s with cue := { s.cue with list := s.cue.list ++ [e] } }) rfl rfl rfl rfl).answer _ _ _
    · exact h.answer _ _ _
  all_goals refine servingInv_serve (fun f s h => ?_) hs
  case protect => unfold ownProtect; repeat' split
                  all_goals exact h.congr.answer _ _ _
  case poolStatus => unfold ownPoolStatus; split <;> exact h.answer _ _ _
  case fetch => unfold ownFetch; repeat' split
                all_goals exact h.answer _ _ _
  case list => unfold ownList; repeat' split
               all_goals exact h.answer _ _ _
  case get => unfold ownGet; repeat' split
              all_goals exact h.answer _ _ _
  case instanceStatus => unfold ownInstStatus; split <;> exact h.answer _ _ _
  case tapMode => unfold ownTapMode; split <;> exact h.congr.answer _ _ _
  case memErrors => unfold ownMemErrors; split <;> exact h.congr.answer _ _ _
  case noticeClear => unfold ownNoticeClear; split <;> exact h.congr.answer _ _ _
  case noticeConfig => unfold ownNoticeConfig; repeat' split
                       all_goals exact h.congr.answer _ _ _
  all_goals exact h.congr.answer _ _ _

/-- Every step keeps the link in order. -/
theorem step_linkInv {s t : State} (h : step s = .next t) (hs : LinkInv s) : LinkInv t := by
  rw [linkInv_iff] at *
  unfold step at h
  split at h
  · exact Host.Outcome.next.inj h ▸ hs
  · exact exec_servingInv (hs.congr) h

/-- Settles O55: the link by the places reserved for what is being served, the cue unit and the tempo unit move by move. -/
theorem linkCueAndTempoInvariantsKept : Obligations.LinkCueAndTempoInvariantsKept := fun _ _ h =>
  ⟨step_linkInv h, step_keeps (fun _ _ hs => hs.congr rfl id) Move.cueInv h,
    step_keeps (P := TempoInv) (fun _ _ hs => ⟨hs.1, hs.2, hs.3, hs.4, hs.5, hs.6⟩) Move.tempoInv h⟩

end Sys2Proof.Machine
end

section
/-! The instance table with its lists, the programs' limits and the budget: each move changes one instance, and what it does to the lists
and the budget follows the change of that instance's state and cost (R7, R16, R100, R108, R134). -/

namespace Sys2Proof.Machine

/-! ### Windows and frames leave an instance's role -/

/-- The end of a window changes of an instance its window, its level and the tail monitor's verdict. -/
theorem Inst.closeWindow_keeps (x : Inst) :
    x.closeWindow.state = x.state ∧ x.closeWindow.slot = x.slot ∧ x.closeWindow.program = x.program ∧
      x.closeWindow.routing = x.routing ∧ (x.running = none → x.closeWindow.running = none) ∧
      ∀ r, x.running = some r → ∃ n m, x.closeWindow.running = some { r with windowProgress := n, windowPeak := m } := by
  unfold Inst.closeWindow
  cases hr : x.running with
  | none => simp [hr]
  | some r =>
    dsimp only
    split
    · obtain ⟨p, -, -, hend⟩ | ⟨hend, -⟩ := Inst.windowEnd_cases hr
      · simp [hend, spillDecision, Inst.leveled]
      · simp [hend, Inst.leveled]
    · exact ⟨rfl, rfl, rfl, rfl, by simp, fun q hq => ⟨q.windowProgress, q.windowPeak, by simpa [hr] using hq⟩⟩

/-- The running fields of an instance after its frame, before the window is looked at (R32, R39, R45, R63, R110). -/
def Running.afterFrame (rate : SampleRate) (i : InstNo) (x : Inst) (p : Program) (r : Running) (s : State) : Running :=
  { r with lines := r.lines.map LineRun.advance,
           taps := (tapsFrame (frameCtx rate i x p r s) p.taps r.taps s).1.map TapOut.run,
           lfo0 := r.lfo0.advance, lfo1 := r.lfo1.advance, inGain := moveNat (inStep x.state) r.inGain (inTarget x.state p),
           outGain := moveNat 512 r.outGain (outTarget x.state p), windowProgress := r.windowProgress + 1,
           windowPeak := max r.windowPeak
             (max (instFrame rate i x p r s).outA.natAbs (instFrame rate i x p r s).outB.natAbs) }

/-- The context of an instance after its frame. -/
theorem instFrame_inst (rate : SampleRate) (i : InstNo) (x : Inst) (p : Program) (r : Running) (s : State) :
    ∃ clip due, (instFrame rate i x p r s).inst =
      ({ x with running := some (Running.afterFrame rate i x p r s), clip := clip, releaseDue := due } : Inst).closeWindow :=
  ⟨_, _, rfl⟩

/-- What a frame leaves of an instance: its role, and of its running fields all that the pools and the budget read. -/
theorem instFrame_inst_keeps (rate : SampleRate) (i : InstNo) (x : Inst) (p : Program) (r : Running) (s : State) :
    (instFrame rate i x p r s).inst.state = x.state ∧ (instFrame rate i x p r s).inst.slot = x.slot ∧
      (instFrame rate i x p r s).inst.program = x.program ∧
      ∃ n m, (instFrame rate i x p r s).inst.running =
        some { Running.afterFrame rate i x p r s with windowProgress := n, windowPeak := m } := by
  obtain ⟨clip, due, h⟩ := instFrame_inst rate i x p r s
  rw [h]
  obtain ⟨hstate, hslot, hprogram, -, -, hrunning⟩ :=
    Inst.closeWindow_keeps { x with running := some (Running.afterFrame rate i x p r s), clip := clip, releaseDue := due }
  exact ⟨hstate, hslot, hprogram, hrunning _ rfl⟩

/-! ### Lists of instances (R100, R108) -/

/-- A list that holds what another holds, but for one instance, which it holds where a condition says so. -/
def ListsBut (i : InstNo) (on : Prop) (l l' : List InstNo) : Prop :=
  l'.Nodup ∧ ∀ j, j ∈ l' ↔ (j = i ∧ on) ∨ (j ≠ i ∧ j ∈ l)

section
variable {i : InstNo} {on : Prop} {l : List InstNo}

theorem ListsBut.same (h : l.Nodup) (hon : i ∈ l ↔ on) : ListsBut i on l l :=
  ⟨h, fun j => by by_cases hj : j = i <;> simp [hj, hon]⟩

theorem ListsBut.erase (h : l.Nodup) (hon : ¬ on) : ListsBut i on l (l.erase i) :=
  ⟨h.erase i, fun j => by simp [h.mem_erase_iff, hon]⟩

theorem ListsBut.append (h : l.Nodup) (hi : i ∉ l) (hon : on) : ListsBut i on l (l ++ [i]) := by
  refine ⟨List.nodup_append.2 ⟨h, List.nodup_singleton i, ?_⟩, fun j => ?_⟩
  · rintro j hj k hk rfl
    exact hi (List.mem_singleton.1 hk ▸ hj)
  · by_cases hj : j = i
    · simp [hj, hon]
    · simp [hj]

end

section
variable {c : Instr} {s t : State}

/-! ### The instance table -/

/-- A change of one instance keeps the table in order where the lists follow its state, and its fields fit the state. -/
theorem InstancesInv.update (hs : InstancesInv s) {i : InstNo} {x : Inst} (hinst : ∀ j, t.inst j = if j = i then x else s.inst j)
    (hrun : t.run = none → s.run = none) (hdue : t.cue.due = s.cue.due)
    (hqueue : ListsBut i (x.state = .waiting) s.queue t.queue) (hspill : ListsBut i (x.state = .spilling) s.spill t.spill)
    (hholds : x.running.isSome = x.state.holdsPages) (hprogram : x.program.isSome = true ↔ x.state ≠ .empty)
    (hslot : x.slot.isSome = true ↔ x.state ≠ .empty) (hsetup : s.run = none → x.state = .empty) : InstancesInv t where
  queueOnce := hqueue.1
  spillOnce := hspill.1
  waiting j := by
    rw [hqueue.2, hinst]
    split
    · next h => simp [h]
    · next h => simp [h, hs.waiting j]
  spilling j := by
    rw [hspill.2, hinst]
    split
    · next h => simp [h]
    · next h => simp [h, hs.spilling j]
  holds j := by rw [hinst]; split <;> [exact hholds; exact hs.holds j]
  program j := by rw [hinst]; split <;> [exact hprogram; exact hs.program j]
  slot j := by rw [hinst]; split <;> [exact hslot; exact hs.slot j]
  setup h j := by rw [hinst]; split <;> [exact hsetup (hrun h); exact hs.setup (hrun h) j]
  cue h := hdue ▸ hs.cue (hrun h)

/-- In SETUP no instance is in any other state than EMPTY. -/
theorem InstancesInv.run_of_state (hs : InstancesInv s) {i : InstNo} {P : Prop} (hstate : (s.inst i).state ≠ .empty) :
    s.run = none → P := fun h => absurd (hs.setup h i) hstate

theorem InstancesInv.queue_same (hs : InstancesInv s) {i : InstNo} {x : Inst}
    (h : (s.inst i).state = .waiting ↔ x.state = .waiting) : ListsBut i (x.state = .waiting) s.queue s.queue :=
  .same hs.queueOnce ((hs.waiting i).trans h)

theorem InstancesInv.spill_same (hs : InstancesInv s) {i : InstNo} {x : Inst}
    (h : (s.inst i).state = .spilling ↔ x.state = .spilling) : ListsBut i (x.state = .spilling) s.spill s.spill :=
  .same hs.spillOnce ((hs.spilling i).trans h)

theorem InstancesInv.running_isSome (hs : InstancesInv s) {i : InstNo} (h : (s.inst i).state.holdsPages = true) :
    (s.inst i).running.isSome = true := (hs.holds i).trans h

theorem InstancesInv.running_eq_none (hs : InstancesInv s) {i : InstNo} (h : (s.inst i).state.holdsPages = false) :
    (s.inst i).running = none := by
  have := (hs.holds i).trans h
  simpa using this

theorem InstancesInv.program_isSome (hs : InstancesInv s) {i : InstNo} (h : (s.inst i).state ≠ .empty) :
    (s.inst i).program.isSome = true := (hs.program i).2 h

theorem InstancesInv.slot_isSome (hs : InstancesInv s) {i : InstNo} (h : (s.inst i).state ≠ .empty) :
    (s.inst i).slot.isSome = true := (hs.slot i).2 h

/-- An instance in RUN with a program that fits is admitted. -/
theorem State.admission_of_fits {i : InstNo} {q : List InstNo} (hrun : s.run ≠ none) (hfits : s.instFits i s.freeCounts = true) :
    ∃ r p, s.run = some r ∧ (s.inst i).program = some p ∧ fits p s.freeCounts = true ∧
      State.admission i { s with queue := q } =
        let g := grantLines i 0 ((fitTest p s.freeCounts).1.zip (p.lines.map LineProg.length)) r
        State.modInst i (Inst.admitted r.rate s.tempo.tempo p g.1 (fitTest p s.freeCounts).2.budget)
          { s with queue := q, run := some { g.2 with budgetInUse := g.2.budgetInUse + (fitTest p s.freeCounts).2.budget } } := by
  obtain ⟨r, hr⟩ := Option.ne_none_iff_exists'.1 hrun
  unfold State.instFits at hfits
  split at hfits
  · next p hp =>
    refine ⟨r, p, hr, hp, hfits, ?_⟩
    exact State.admission_eq (s := { s with queue := q }) hr hp
  · cases hfits

/-- An instance that may be admitted is WAITING or READY. -/
theorem InstancesInv.waiting_or_ready (hs : InstancesInv s) {i : InstNo} (h : i ∈ s.queue ∨ (s.inst i).state = .ready) :
    (s.inst i).state = .waiting ∨ (s.inst i).state = .ready := h.imp_left (hs.waiting i).1

theorem State.EngineMove.instancesInv (h : s.EngineMove t) (hs : InstancesInv s) : InstancesInv t := by
  cases h with
  | load i k r hrun hstate _ =>
    have hnone : (s.inst i).running = none := hs.running_eq_none (by obtain h | h := hstate <;> rw [h] <;> rfl)
    refine hs.update (State.modInst_inst i · _ s) id rfl (hs.queue_same ?_) (hs.spill_same ?_) ?_ ?_ ?_ fun h => ?_
    · obtain h | h := hstate <;> simp [h, Inst.loaded]
    · obtain h | h := hstate <;> simp [h, Inst.loaded]
    · simp [Inst.loaded, hnone, InstState.holdsPages]
    · simp [Inst.loaded]
    · simp [Inst.loaded]
    · exact absurd (hrun h) (by simp [hs.cue h])
  | unload i hstate =>
    refine hs.update (State.modInst_inst i · _ s) id rfl (hs.queue_same ?_) (hs.spill_same ?_) rfl ?_ ?_ fun _ => rfl
    all_goals simp [hstate, Inst.emptyWith]
  | admission i hstate hfits =>
    have hstate := hs.waiting_or_ready hstate
    have hne : (s.inst i).state ≠ .empty := by obtain h | h := hstate <;> simp [h]
    have hnone : s.run ≠ none := fun h => hs.run_of_state hne h
    obtain ⟨r, p, hr, hp, -, heq⟩ := State.admission_of_fits (q := s.queue.erase i) hnone hfits
    rw [heq]
    refine hs.update (State.modInst_inst i · _ _) (by simp) rfl (.erase hs.queueOnce ?_) (hs.spill_same ?_) rfl ?_ ?_
      (fun h => absurd h hnone)
    · simp [Inst.admitted]
    · obtain h | h := hstate <;> simp [h, Inst.admitted]
    · exact iff_of_true (hs.program_isSome hne) (by simp [Inst.admitted])
    · exact iff_of_true (hs.slot_isSome hne) (by simp [Inst.admitted])
  | enqueue i hstate =>
    have hne : (s.inst i).state ≠ .empty := by simp [hstate]
    have hnone : (s.inst i).running = none := hs.running_eq_none (by rw [hstate]; rfl)
    refine hs.update (State.modInst_inst i · _ _) id rfl (.append hs.queueOnce ?_ rfl) (hs.spill_same ?_) ?_ ?_ ?_
      (hs.run_of_state hne)
    · simp [hs.waiting, hstate]
    · simp [hstate]
    · exact congrArg Option.isSome hnone
    · exact iff_of_true (hs.program_isSome hne) (by simp)
    · exact iff_of_true (hs.slot_isSome hne) (by simp)
  | leaveQueue i hstate =>
    have hstate : (s.inst i).state = .waiting := hstate.elim (hs.waiting i).1 id
    have hne : (s.inst i).state ≠ .empty := by simp [hstate]
    have hnone : (s.inst i).running = none := hs.running_eq_none (by rw [hstate]; rfl)
    refine hs.update (State.modInst_inst i · _ _) id rfl (.erase hs.queueOnce ?_) (hs.spill_same ?_) ?_ ?_ ?_ (hs.run_of_state hne)
    · simp
    · simp [hstate]
    · exact congrArg Option.isSome hnone
    · exact iff_of_true (hs.program_isSome hne) (by simp)
    · exact iff_of_true (hs.slot_isSome hne) (by simp)
  | spill i hstate =>
    have hne : (s.inst i).state ≠ .empty := by obtain h | h := hstate <;> simp [h]
    have hsome : (s.inst i).running.isSome = true := hs.running_isSome (by obtain h | h := hstate <;> rw [h] <;> rfl)
    refine hs.update (State.modInst_inst i · _ _) id rfl (hs.queue_same ?_) (.append hs.spillOnce ?_ rfl) ?_ ?_ ?_
      (hs.run_of_state hne)
    · obtain h | h := hstate <;> simp [h]
    · obtain h | h := hstate <;> simp [hs.spilling, h]
    · exact (Option.isSome_map ..).trans hsome
    · exact iff_of_true (hs.program_isSome hne) (by simp)
    · exact iff_of_true (hs.slot_isSome hne) (by simp)
  | cut i why hstate =>
    have hstate : (s.inst i).state = .running ∨ (s.inst i).state = .held ∨ (s.inst i).state = .spilling :=
      hstate.elim (fun h => .inr (.inr ((hs.spilling i).1 h))) id
    have hne : (s.inst i).state ≠ .empty := by obtain h | h | h := hstate <;> simp [h]
    have hsome : (s.inst i).running.isSome = true := hs.running_isSome (by obtain h | h | h := hstate <;> rw [h] <;> rfl)
    refine hs.update (State.modInst_inst i · _ _) id rfl (hs.queue_same ?_) (.erase hs.spillOnce ?_) ?_ ?_ ?_ (hs.run_of_state hne)
    · obtain h | h | h := hstate <;> simp [h]
    · simp
    · exact hsome
    · exact iff_of_true (hs.program_isSome hne) (by simp)
    · exact iff_of_true (hs.slot_isSome hne) (by simp)
  | resume i hstate =>
    have hne : (s.inst i).state ≠ .empty := by simp [hstate]
    have hsome : (s.inst i).running.isSome = true := hs.running_isSome (by rw [hstate]; rfl)
    refine hs.update (State.modInst_inst i · _ _) id rfl (hs.queue_same ?_) (.erase hs.spillOnce ?_) ?_ ?_ ?_ (hs.run_of_state hne)
    · simp [hstate]
    · simp
    · exact hsome
    · exact iff_of_true (hs.program_isSome hne) (by simp)
    · exact iff_of_true (hs.slot_isSome hne) (by simp)
  | hold i hstate =>
    have hne : (s.inst i).state ≠ .empty := by simp [hstate]
    have hsome : (s.inst i).running.isSome = true := hs.running_isSome (by rw [hstate]; rfl)
    refine hs.update (State.modInst_inst i · _ _) id rfl (hs.queue_same ?_) (hs.spill_same ?_) ?_ ?_ ?_ (hs.run_of_state hne)
    · simp [hstate]
    · simp [hstate]
    · exact hsome
    · exact iff_of_true (hs.program_isSome hne) (by simp)
    · exact iff_of_true (hs.slot_isSome hne) (by simp)
  | unhold i hstate =>
    have hne : (s.inst i).state ≠ .empty := by simp [hstate]
    have hsome : (s.inst i).running.isSome = true := hs.running_isSome (by rw [hstate]; rfl)
    refine hs.update (State.modInst_inst i · _ _) id rfl (hs.queue_same ?_) (hs.spill_same ?_) ?_ ?_ ?_ (hs.run_of_state hne)
    · simp [hstate]
    · simp [hstate]
    · exact hsome
    · exact iff_of_true (hs.program_isSome hne) (by simp)
    · exact iff_of_true (hs.slot_isSome hne) (by simp)
  | set i d k v =>
    refine hs.update (State.modInst_inst i · _ s) id rfl (hs.queue_same .rfl) (hs.spill_same .rfl) ?_ ?_ (hs.slot i) (hs.setup · i)
    · simpa [Inst.store] using hs.holds i
    · simpa [Inst.store] using hs.program i
  | release i hstate =>
    have hne : (s.inst i).state ≠ .empty := by obtain h | h := hstate <;> simp [h]
    refine hs.update (State.modInst_inst i · _ _) (by simp) rfl (hs.queue_same ?_) (.erase hs.spillOnce ?_) rfl ?_ ?_
      (hs.run_of_state hne)
    · obtain h | h := hstate <;> simp [h, Inst.released]
    · simp [Inst.released]
    · exact iff_of_true (hs.program_isSome hne) (by simp [Inst.released])
    · exact iff_of_true (hs.slot_isSome hne) (by simp [Inst.released])
  | voidDecision i _ =>
    exact hs.update (State.modInst_inst i · _ s) id rfl (hs.queue_same .rfl) (hs.spill_same .rfl) (hs.holds i) (hs.program i) (hs.slot i)
      (hs.setup · i)
  | voidRelease i =>
    exact hs.update (State.modInst_inst i · _ s) id rfl (hs.queue_same .rfl) (hs.spill_same .rfl) (hs.holds i) (hs.program i) (hs.slot i)
      (hs.setup · i)

/-- Where every instance is EMPTY and both lists are, the table is in order. -/
theorem instancesInv_empty {r : InstNo → Routing} (hinst : ∀ i, t.inst i = Inst.emptyWith (r i)) (hqueue : t.queue = [])
    (hspill : t.spill = []) (hcue : t.cue.due = false) : InstancesInv t := by
  constructor <;> simp [hinst, hqueue, hspill, hcue, Inst.emptyWith, InstState.holdsPages]

theorem reset_inst (i : InstNo) : State.reset.inst i = Inst.emptyWith Routing.none := by
  simp [State.inst, State.reset]

theorem softEngine_inst (r : Run) (s : State) (i : InstNo) : (s.softEngine r).inst i = Inst.emptyWith (s.inst i).routing := by
  simp [State.inst, State.softEngine]

/-- A plain move leaves the table. -/
theorem State.PlainMove.sameTable (h : s.PlainMove c t) : s.SameTable t := by
  obtain ⟨hrun, hqueue, hspill, hlibrary, -, hcue⟩ := h.same
  have hinst := State.inst_congr h.instances
  exact ⟨hrun, hqueue, hspill, by rw [hcue], hlibrary, fun i => by rw [hinst]; exact ⟨rfl, rfl, rfl, rfl⟩⟩

/-- What an instance's frame or window end does leaves the table. -/
theorem InstancesInv.sameRole (hs : InstancesInv s) {i : InstNo} {x : Inst} (hstate : x.state = (s.inst i).state)
    (hslot : x.slot = (s.inst i).slot) (hprogram : x.program = (s.inst i).program)
    (hrunning : x.running.isSome = (s.inst i).running.isSome) : InstancesInv (s.setInst i x) :=
  hs.update (State.setInst_inst i · x s) id rfl (hs.queue_same (by rw [hstate])) (hs.spill_same (by rw [hstate]))
    (by rw [hrunning, hstate]; exact hs.holds i) (by rw [hprogram, hstate]; exact hs.program i)
    (by rw [hslot, hstate]; exact hs.slot i) fun h => by rw [hstate]; exact hs.setup h i

theorem Inst.closeWindow_isSome (x : Inst) : x.closeWindow.running.isSome = x.running.isSome := by
  obtain ⟨-, -, -, -, hnone, hsome⟩ := x.closeWindow_keeps
  cases hr : x.running with
  | none => rw [hnone hr]
  | some r =>
    obtain ⟨n, m, h⟩ := hsome r hr
    rw [h]; rfl

theorem Move.instancesInv (h : Move c s t) (hs : InstancesInv s) : InstancesInv t := by
  have same {u : State} (hr : u.run = s.run) (hq : u.queue = s.queue) (hsp : u.spill = s.spill) (hi : u.instances = s.instances)
      (hdue : u.run = none → u.cue.due = false) : InstancesInv u := by
    have hinst := State.inst_congr hi
    exact ⟨hq ▸ hs.queueOnce, hsp ▸ hs.spillOnce, fun i => by rw [hq, hinst]; exact hs.waiting i,
      fun i => by rw [hsp, hinst]; exact hs.spilling i, fun i => by rw [hinst]; exact hs.holds i,
      fun i => by rw [hinst]; exact hs.program i, fun i => by rw [hinst]; exact hs.slot i,
      fun hn i => by rw [hinst]; exact hs.setup (hr ▸ hn) i, hdue⟩
  cases h with
  | quiet h =>
    cases h with
    | plain h => exact hs.congr h.sameTable
    | engine h => exact h.instancesInv hs
    | tempo => exact same rfl rfl rfl rfl hs.cue
    | cue h =>
      refine same rfl rfl rfl rfl fun hn => ?_
      have hdue : s.cue.due = false := hs.cue hn
      cases h with
      | due r hrun => simp [hrun] at hn
      | _ => first | exact hdue | rfl
  | library => exact same rfl rfl rfl rfl hs.cue
  | advance i r p y u _ hprogram hrunning _ _ _ =>
    obtain ⟨hstate, hslot, hprog, n, m, hrun⟩ := instFrame_inst_keeps r.rate i (s.inst i) p y u
    exact hs.sameRole hstate hslot hprog (by rw [hrun, hrunning]; rfl)
  | closeWindow i =>
    obtain ⟨hstate, hslot, hprog, -⟩ := (s.inst i).closeWindow_keeps
    exact hs.sameRole hstate hslot hprog (Inst.closeWindow_isSome _)
  | enterRun ticks rate size pol hrun =>
    have hempty := hs.setup hrun
    exact ⟨hs.queueOnce, hs.spillOnce, hs.waiting, hs.spilling, hs.holds, hs.program, hs.slot, fun h => by simp [State.enterRun] at h,
      fun h => by simp [State.enterRun] at h⟩
  | softEngine r hrun => exact instancesInv_empty (softEngine_inst r s) rfl rfl rfl
  | assertReset => exact instancesInv_empty (t := { s.resetAssert with near := _, dram := _ }) reset_inst rfl rfl rfl
  | powerUp => exact instancesInv_empty (t := s.powerUp) reset_inst rfl rfl rfl

end

end Sys2Proof.Machine
end

section
/-! Programs within their limits and the budget: what a move does to what each instance holds, and obligation O56 (R14 to R16, R134). -/

namespace Sys2Proof.Machine

/-! ### Programs within their limits (R75, R88, R134) -/

/-- A clamped value lies in its range (R88). -/
theorem clampInt_mem {lo hi : Int} (h : lo ≤ hi) (x : Int) : lo ≤ clampInt lo hi x ∧ clampInt lo hi x ≤ hi := by
  unfold clampInt
  split
  · omega
  · split <;> omega

/-- The value that SET stores lies in the range of its identifier (R87, R88). -/
theorem Ident.clamp_mem (d : Ident) (v : Int) : d.range.1 ≤ d.clamp v ∧ d.clamp v ≤ d.range.2 :=
  clampInt_mem (by cases d <;> decide) v

/-- A change of one tap that keeps its limits keeps the program's. -/
theorem Program.wf.modTap {p : Program} (hp : p.wf) {k : Nat} {g : TapProg → TapProg}
    (hg : ∀ n t, TapProg.wf n t → TapProg.wf n (g t)) : (p.modTap k g).wf where
  name := hp.name
  lineCount := hp.lineCount
  tapCount := by simpa [Program.modTap] using hp.tapCount
  lines := hp.lines
  taps t ht := by
    obtain ⟨m, hm⟩ := List.mem_iff_getElem?.1 ht
    simp only [Program.modTap, List.getElem?_modify] at hm
    obtain ⟨u, hu, rfl⟩ := Option.map_eq_some_iff.1 hm
    have hwf := hp.taps u (List.mem_of_getElem? hu)
    split
    · exact hg _ _ hwf
    · exact hwf
  lfo0 := hp.lfo0
  lfo1 := hp.lfo1
  inGain := hp.inGain
  outGain := hp.outGain
  glide := hp.glide
  tailFloor := hp.tailFloor
  quiet := hp.quiet
  spillLimit := hp.spillLimit

/-- A change of one LFO that keeps its limits keeps the program's. -/
theorem Program.wf.modLfo {p : Program} (hp : p.wf) {k : Nat} {g : LfoProg → LfoProg} (hg : ∀ l : LfoProg, l.wf → (g l).wf) :
    (p.modLfo k g).wf := by
  unfold Program.modLfo
  split
  · exact { hp with lfo0 := hg _ hp.lfo0 }
  · exact { hp with lfo1 := hg _ hp.lfo1 }

/-- A program with a value stored within its range keeps its limits (R88). -/
theorem Program.wf.store {p : Program} (hp : p.wf) (d : Ident) (k : Nat) {v : Int} (hv : d.range.1 ≤ v ∧ v ≤ d.range.2) :
    (Program.store d k v p).wf := by
  obtain ⟨hlo, hhi⟩ := hv
  cases d
  all_goals simp only [Ident.range] at hlo hhi
  case inGain => exact { hp with inGain := by change v.toNat ≤ _; omega }
  case outGain => exact { hp with outGain := by change v.toNat ≤ _; omega }
  case glide => exact { hp with glide := by change v.toNat ≤ _; omega }
  case tapGain => exact hp.modTap fun _ _ h => { h with gain := ⟨hlo, hhi⟩ }
  case tapSource => exact hp.modTap fun _ _ h => { h with }
  case tapFixed => exact hp.modTap fun _ _ h => { h with fixed := by dsimp only; omega }
  case tapTicks => exact hp.modTap fun _ _ h => { h with ticks := by dsimp only; omega }
  case tapLfo => exact hp.modTap fun _ _ h => { h with }
  case tapDepth => exact hp.modTap fun _ _ h => { h with depth := by dsimp only; omega }
  case tapDamp => exact hp.modTap fun _ _ h => { h with damp := by dsimp only; omega }
  case lfoRate => exact hp.modLfo (g := fun l => { l with rate := v.toNat }) fun l h => ⟨by dsimp only; omega, by dsimp only; omega, h.2.2⟩
  case lfoShape => exact hp.modLfo (g := fun l => { l with shape := shapeOfValue v }) fun _ h => h
  case lfoPhase => exact hp.modLfo (g := fun l => { l with phase := v.toNat }) fun l h => ⟨h.1, h.2.1, by dsimp only; omega⟩
  case tailFloor => exact { hp with tailFloor := by change v.toNat ≤ _; omega }
  case tailQuiet => exact { hp with quiet := by change 1 ≤ v.toNat ∧ v.toNat ≤ _; omega }
  case spillLimit => exact { hp with spillLimit := by change 1 ≤ v.toNat ∧ v.toNat ≤ _; omega }
  all_goals exact hp

/-- The lines of a program take no part in SET (R87). -/
@[simp] theorem Program.store_lines (d : Ident) (k : Nat) (v : Int) (p : Program) : (Program.store d k v p).lines = p.lines := by
  cases d
  case lfoRate | lfoShape | lfoPhase => simp only [Program.store, Program.modLfo]; split <;> rfl
  all_goals rfl

section
variable {c : Instr} {s t : State}

/-- A program after a move of instances: the one before it, with a value stored or not, or that of a library record. -/
theorem State.EngineMove.program_cases (h : s.EngineMove t) {i : InstNo} {p : Program} (hp : (t.inst i).program = some p) :
    (s.inst i).program = some p ∨ (∃ d k v q, (s.inst i).program = some q ∧ p = Program.store d k (d.clamp v) q) ∨
      ∃ k r, (s.libSlot k).record = some r ∧ p = r.program := by
  cases h with
  | load j k r _ _ hrecord =>
    rw [State.modInst_inst] at hp
    split at hp
    · exact .inr (.inr ⟨k, r, hrecord, (Option.some.inj hp).symm⟩)
    · exact .inl hp
  | unload j =>
    rw [State.modInst_inst] at hp
    split at hp
    · cases hp
    · exact .inl hp
  | admission j _ hfits =>
    refine .inl ?_
    unfold State.admission at hp
    split at hp
    · dsimp only at hp
      rw [State.modInst_inst] at hp
      split at hp
      · next he => subst he; exact hp
      · exact hp
    · exact hp
  | set j d k v =>
    rw [State.modInst_inst] at hp
    split at hp
    · next he =>
      subst he
      obtain ⟨q, hq, rfl⟩ := Option.map_eq_some_iff.1 hp
      exact .inr (.inl ⟨d, k, v, q, hq, rfl⟩)
    · exact .inl hp
  | enqueue j | leaveQueue j | spill j | cut j | resume j | hold j | unhold j | release j | voidDecision j | voidRelease j =>
    refine .inl (Eq.trans ?_ hp)
    refine Eq.trans ?_ (congrArg Inst.program (State.modInst_inst j i _ _)).symm
    split <;> [subst_vars; skip] <;> rfl

/-- Changing other fields than the library and the instances leaves the programs. -/
theorem ProgramsInv.same (hs : ProgramsInv s) (hl : t.library = s.library) (hi : ∀ i, (t.inst i).program = (s.inst i).program) :
    ProgramsInv t :=
  ⟨fun k r h => hs.library k r (State.libSlot_congr hl k ▸ h), fun i p h => hs.instances i p (hi i ▸ h)⟩

/-- Where every instance is EMPTY only the library holds programs. -/
theorem ProgramsInv.empty (hs : ProgramsInv s) (hl : t.library = s.library) {r : InstNo → Routing}
    (hi : ∀ i, t.inst i = Inst.emptyWith (r i)) : ProgramsInv t :=
  ⟨fun k r h => hs.library k r (State.libSlot_congr hl k ▸ h), fun i p h => by rw [hi] at h; cases h⟩

theorem Move.programsInv (h : Move c s t) (hs : ProgramsInv s) : ProgramsInv t := by
  cases h with
  | quiet h =>
    cases h with
    | plain h => exact hs.same h.sameTable.library fun i => by rw [State.inst_congr h.instances]
    | engine h =>
      refine ⟨fun k r hr => hs.library k r (State.libSlot_congr (congrArg State.library h.same) k ▸ hr), fun i p hp => ?_⟩
      obtain hp | ⟨d, k, v, q, hq, rfl⟩ | ⟨k, r, hr, rfl⟩ := h.program_cases hp
      · exact hs.instances i p hp
      · exact (hs.instances i q hq).store d k (d.clamp_mem v)
      · exact hs.library k r hr
    | tempo => exact ⟨hs.library, hs.instances⟩
    | cue => exact ⟨hs.library, hs.instances⟩
  | library hc k x hx =>
    refine ⟨fun j q hq => ?_, hs.instances⟩
    obtain hq | hq := (Move.library hc k x hx).libSlot_record hq
    · exact hs.library j q hq
    · exact hq.programWf
  | advance i r p y u =>
    refine hs.same rfl fun j => ?_
    rw [State.setInst_inst]
    split
    · next he => subst he; exact (instFrame_inst_keeps ..).2.2.1
    · rfl
  | closeWindow i =>
    refine hs.same rfl fun j => ?_
    rw [State.setInst_inst]
    split
    · next he => subst he; exact (Inst.closeWindow_keeps _).2.2.1
    · rfl
  | enterRun => exact ⟨hs.library, hs.instances⟩
  | softEngine r => exact hs.empty rfl (softEngine_inst r s)
  | assertReset n d => exact hs.empty (t := { s.resetAssert with near := n, dram := d }) rfl reset_inst
  | powerUp =>
    refine ⟨fun k r hr => ?_, fun i p hp => ?_⟩
    · cases (reset_libSlot_record k).symm.trans hr
    · cases (congrArg Inst.program (reset_inst i)).symm.trans hp

/-! ### What the instances hold (R5, R15) -/

/-- What an instance holds: its cost and, line by line, the pool and the page list. -/
def Inst.holdings (x : Inst) : Option (Nat × List (Pool × List Nat)) :=
  x.running.map fun r => (r.cost, r.lines.map fun l => (l.pool, l.pages))

theorem Inst.cost_eq (x : Inst) : x.cost = (x.holdings.map Prod.fst).getD 0 := by
  unfold Inst.cost Inst.holdings
  cases x.running <;> rfl

theorem Inst.holdings_of_none {x : Inst} (h : x.running = none) : x.holdings = none := by
  simp [Inst.holdings, h]

/-- What a move does to what the instances hold: nothing; an admission; a release; or it leaves none that holds anything, with the
pools as SETUP builds them or with none. -/
inductive State.HoldingMove (s t : State) : Prop where
  | same (hrun : t.run = s.run) (hsame : ∀ i, (t.inst i).holdings = (s.inst i).holdings)
      (hlengths : ∀ i, (s.inst i).holdings ≠ none →
        (t.inst i).program.map Program.lines = (s.inst i).program.map Program.lines)
  | admission (i : InstNo) (r : Run) (p : Program) (hrun : s.run = some r) (hprogram : (s.inst i).program = some p)
      (hnone : (s.inst i).running = none) (hfits : fits p s.freeCounts = true)
      (ht : t.run = some { (grantLines i 0 ((fitTest p s.freeCounts).1.zip (p.lines.map LineProg.length)) r).2 with
        budgetInUse := (grantLines i 0 ((fitTest p s.freeCounts).1.zip (p.lines.map LineProg.length)) r).2.budgetInUse +
          (fitTest p s.freeCounts).2.budget })
      (hinst : ∀ j, t.inst j = if j = i then
        Inst.admitted r.rate s.tempo.tempo p (grantLines i 0 ((fitTest p s.freeCounts).1.zip (p.lines.map LineProg.length)) r).1
          (fitTest p s.freeCounts).2.budget (s.inst i) else s.inst j)
  | release (i : InstNo) (hrun : t.run = s.run.map (Run.takeBack (s.inst i)))
      (hinst : ∀ j, t.inst j = if j = i then (s.inst i).released else s.inst j)
  | fresh (hrun : t.run = none ∨ ∃ rate size pol, t.run = some (Run.build rate size pol)) (hnone : ∀ i, (t.inst i).running = none)

/-- A change of one instance that keeps what it holds and its lines. -/
theorem State.HoldingMove.update {i : InstNo} {x : Inst} (hinst : ∀ j, t.inst j = if j = i then x else s.inst j)
    (hrun : t.run = s.run) (hholdings : x.holdings = (s.inst i).holdings)
    (hlines : (s.inst i).holdings ≠ none → x.program.map Program.lines = (s.inst i).program.map Program.lines) :
    s.HoldingMove t := by
  refine .same hrun (fun j => ?_) fun j hj => ?_
  · rw [hinst]
    split
    · next he => rw [he, hholdings]
    · rfl
  · rw [hinst]
    split
    · next he => subst he; exact hlines hj
    · rfl

/-- A store leaves what an instance holds (R89). -/
theorem Running.store_keeps (rate : SampleRate) (d : Ident) (k : Nat) (v : Int) (r : Running) :
    (Running.store rate d k v r).cost = r.cost ∧ (Running.store rate d k v r).lines = r.lines := by
  unfold Running.store
  split
  · split <;> exact ⟨rfl, rfl⟩
  all_goals exact ⟨rfl, rfl⟩

/-- Lines advance within their pages (R28). -/
theorem LineRun.advance_keeps (l : LineRun) : l.advance.pool = l.pool ∧ l.advance.pages = l.pages := by
  unfold LineRun.advance
  exact ⟨rfl, rfl⟩

theorem Running.afterFrame_holdings (rate : SampleRate) (i : InstNo) (x : Inst) (p : Program) (r : Running) (s : State) :
    (Running.afterFrame rate i x p r s).cost = r.cost ∧
      (Running.afterFrame rate i x p r s).lines.map (fun l => (l.pool, l.pages)) = r.lines.map fun l => (l.pool, l.pages) := by
  refine ⟨rfl, ?_⟩
  simp [Running.afterFrame, LineRun.advance_keeps, Function.comp_def]

theorem State.EngineMove.holdingMove (h : s.EngineMove t) (hs : InstancesInv s) : s.HoldingMove t := by
  have holdings_none {i : InstNo} (h : (s.inst i).state.holdsPages = false) : (s.inst i).holdings = none :=
    Inst.holdings_of_none (hs.running_eq_none h)
  cases h with
  | load i k r _ hstate _ =>
    have hnone := holdings_none (i := i) (by obtain h | h := hstate <;> rw [h] <;> rfl)
    exact .update (State.modInst_inst i · _ s) rfl rfl fun h => absurd hnone h
  | unload i hstate =>
    have hnone := holdings_none (i := i) (by rw [hstate]; rfl)
    exact .update (State.modInst_inst i · _ s) rfl hnone.symm fun h => absurd hnone h
  | admission i hstate hfits =>
    have hstate := hs.waiting_or_ready hstate
    have hnone : s.run ≠ none := fun h => hs.run_of_state (i := i) (by obtain h | h := hstate <;> simp [h]) h
    obtain ⟨r, p, hr, hp, hfit, heq⟩ := State.admission_of_fits (q := s.queue.erase i) hnone hfits
    refine .admission i r p hr hp (hs.running_eq_none (by obtain h | h := hstate <;> rw [h] <;> rfl)) hfit ?_ ?_
    · rw [heq]; rfl
    · rw [heq]; exact (State.modInst_inst i · _ _)
  | release i => exact .release i rfl (State.modInst_inst i · _ _)
  | spill i hstate =>
    refine .update (State.modInst_inst i · _ _) rfl ?_ fun _ => rfl
    exact Option.map_map ..
  | set i d k v =>
    refine .update (State.modInst_inst i · _ _) rfl ?_ fun _ => ?_
    · simp [Inst.holdings, Inst.store, Function.comp_def, Running.store_keeps]
    · simp [Inst.store, Function.comp_def]
  | enqueue i | leaveQueue i | cut i | resume i | hold i | unhold i | voidDecision i | voidRelease i =>
    exact .update (State.modInst_inst i · _ _) rfl rfl fun _ => rfl

theorem Move.holdingMove (h : Move c s t) (hs : InstancesInv s) : s.HoldingMove t := by
  have hempty {r : InstNo → Routing} (h : ∀ i, t.inst i = Inst.emptyWith (r i)) (i : InstNo) : (t.inst i).running = none := by
    rw [h]; rfl
  cases h with
  | quiet h =>
    cases h with
    | plain h =>
      have hinst := State.inst_congr h.instances
      exact .same h.sameTable.run (fun i => by rw [hinst]) fun i _ => by rw [hinst]
    | engine h => exact h.holdingMove hs
    | tempo => exact .same rfl (fun _ => rfl) fun _ _ => rfl
    | cue => exact .same rfl (fun _ => rfl) fun _ _ => rfl
  | library => exact .same rfl (fun _ => rfl) fun _ _ => rfl
  | advance i r p y u _ hprogram hrunning =>
    obtain ⟨-, -, hprog, n, m, hrun⟩ := instFrame_inst_keeps r.rate i (s.inst i) p y u
    obtain ⟨hcost, hlines⟩ := Running.afterFrame_holdings r.rate i (s.inst i) p y u
    refine .update (State.setInst_inst i · _ s) rfl ?_ fun _ => by rw [hprog]
    simp only [Inst.holdings, hrun, hrunning, Option.map_some, hcost, hlines]
  | closeWindow i =>
    obtain ⟨-, -, hprog, -, hnone, hsome⟩ := (s.inst i).closeWindow_keeps
    refine .update (State.setInst_inst i · _ s) rfl ?_ fun _ => by rw [hprog]
    cases hr : (s.inst i).running with
    | none => simp [Inst.holdings, hnone hr, hr]
    | some r =>
      obtain ⟨n, m, hrun⟩ := hsome r hr
      simp [Inst.holdings, hrun, hr]
  | enterRun ticks rate size pol hrun =>
    exact .fresh (.inr ⟨rate, size, pol, rfl⟩) fun i => hs.running_eq_none (by rw [hs.setup hrun i]; rfl)
  | softEngine r => exact .fresh (.inr ⟨_, _, _, rfl⟩) (hempty (softEngine_inst r s))
  | assertReset n d => exact .fresh (.inl rfl) (hempty reset_inst)
  | powerUp => exact .fresh (.inl rfl) (hempty reset_inst)

/-! ### The budget (R15, R16) -/

/-- A sum over the instances after one of the terms changed. -/
theorem sum_allInsts_update {f g : InstNo → Nat} (i : InstNo) (h : ∀ j, j ≠ i → g j = f j) :
    (allInsts.map g).sum + f i = (allInsts.map f).sum + g i := by
  have sum_eq (f : InstNo → Nat) : (allInsts.map f).sum = ∑ j, f j := (Fin.sum_univ_def f).symm
  have hrest : ∑ j ∈ Finset.univ.erase i, g j = ∑ j ∈ Finset.univ.erase i, f j :=
    Finset.sum_congr rfl fun j hj => h j (Finset.ne_of_mem_erase hj)
  rw [sum_eq, sum_eq, ← Finset.sum_erase_add _ g (Finset.mem_univ i), ← Finset.sum_erase_add _ f (Finset.mem_univ i), hrest]
  omega

/-- A program that fits demands no more of anything than the counts give (R97). -/
theorem fits_iff (p : Program) (n : Counts) :
    fits p n = true ↔ (fitTest p n).2.far ≤ n.far ∧ (fitTest p n).2.near ≤ n.near ∧ (fitTest p n).2.budget ≤ n.budget := by
  simp [fits]

theorem State.HoldingMove.budget (h : s.HoldingMove t)
    (hsum : ∀ r, s.run = some r → r.budgetInUse = (allInsts.map fun i => (s.inst i).cost).sum)
    (hbound : ∀ r, s.run = some r → r.budgetInUse ≤ r.rate.budget) :
    ∀ r, t.run = some r → r.budgetInUse = (allInsts.map fun i => (t.inst i).cost).sum ∧ r.budgetInUse ≤ r.rate.budget := by
  intro u hu
  cases h with
  | same hrun hsame =>
    have hcost : (fun i => (t.inst i).cost) = fun i => (s.inst i).cost := funext fun i => by
      rw [Inst.cost_eq, Inst.cost_eq, hsame]
    rw [hcost]
    exact ⟨hsum u (hrun ▸ hu), hbound u (hrun ▸ hu)⟩
  | admission i r p hrun hprogram hnone hfits ht hinst =>
    obtain rfl := Option.some.inj (hu.symm.trans ht)
    obtain ⟨hrate, -, -, hbudget⟩ :=
      grantLines_keeps i ((fitTest p s.freeCounts).1.zip (p.lines.map LineProg.length)) 0 r
    have hupdate := sum_allInsts_update (f := fun j => (s.inst j).cost) (g := fun j => (t.inst j).cost) i fun j hj => by
      rw [hinst, if_neg hj]
    have hfree : s.freeCounts.budget = r.leftover := by simp [State.freeCounts, hrun]
    have hdemand := ((fits_iff p _).1 hfits).2.2
    have hcost : (s.inst i).cost = 0 := by simp [Inst.cost, hnone]
    have hnew : (t.inst i).cost = (fitTest p s.freeCounts).2.budget := by rw [hinst, if_pos rfl]; rfl
    have hs := hsum r hrun
    have hb := hbound r hrun
    simp only [hcost, hnew] at hupdate
    simp only [hrate, hbudget]
    rw [hfree, Run.leftover] at hdemand
    omega
  | release i hrun hinst =>
    rw [hrun] at hu
    obtain ⟨r, hr, rfl⟩ := Option.map_eq_some_iff.1 hu
    have hupdate := sum_allInsts_update (f := fun j => (s.inst j).cost) (g := fun j => (t.inst j).cost) i fun j hj => by
      rw [hinst, if_neg hj]
    have hnew : (t.inst i).cost = 0 := by rw [hinst, if_pos rfl]; rfl
    have hback : (Run.takeBack (s.inst i) r).budgetInUse = r.budgetInUse - (s.inst i).cost ∧
        (Run.takeBack (s.inst i) r).rate = r.rate := by
      obtain hy | ⟨y, hy⟩ := Option.eq_none_or_eq_some (s.inst i).running
      · rw [Run.takeBack, Inst.cost, hy]
        exact ⟨rfl, rfl⟩
      · rw [Run.takeBack, Inst.cost, hy]
        exact ⟨rfl, (returnLines_keeps _ r).1⟩
    have hs := hsum r hr
    have hb := hbound r hr
    simp only [hnew] at hupdate
    rw [hback.1, hback.2]
    omega
  | fresh hrun hnone =>
    obtain h | ⟨rate, size, pol, h⟩ := hrun
    · rw [h] at hu; cases hu
    · obtain rfl := Option.some.inj (hu.symm.trans h)
      simp [Inst.cost, hnone, Run.build]

theorem Move.budgetInv (h : Move c s t) (hs : BudgetInv s) : BudgetInv t :=
  have hbudget := (h.holdingMove hs.instances).budget hs.sum hs.bound
  ⟨h.instancesInv hs.instances, fun r hr => (hbudget r hr).1, fun r hr => (hbudget r hr).2⟩

end

/-- Settles O56: each move keeps each of the four; a step is a chain of moves. -/
theorem tableInvariantsKept : Obligations.TableInvariantsKept := by
  intro s t h
  exact ⟨step_keeps (fun _ _ hs => ⟨hs.queueOnce, hs.spillOnce, hs.waiting, hs.spilling, hs.holds, hs.program, hs.slot, hs.setup, hs.cue⟩)
      Move.instancesInv h,
    step_keeps (fun _ _ hs => ⟨⟨hs.instances.queueOnce, hs.instances.spillOnce, hs.instances.waiting, hs.instances.spilling,
      hs.instances.holds, hs.instances.program, hs.instances.slot, hs.instances.setup, hs.instances.cue⟩, hs.sum, hs.bound⟩)
      Move.budgetInv h,
    step_keeps (fun _ _ hs => hs) Move.libraryInv h,
    step_keeps (fun _ _ hs => ⟨hs.library, hs.instances⟩) Move.programsInv h⟩

end Sys2Proof.Machine
end

section
/-! The page pools: a grant moves pages from the head of a free list into one line's page list, a return moves them to its tail, and the
owner table follows both (R4 to R9). Obligations O58 and O54. -/

namespace Sys2Proof.Machine

/-! ### One pool (R4 to R6) -/

/-- One pool of `size` pages in order: every page is free once or in one page list once, and the owner table says which; `n` pages are held. -/
structure PoolSound (size : Nat) (free : List Nat) (owners : List (Option Owner)) (held : InstNo → Nat → List Nat) (n : Nat) : Prop where
  freeOnce  : free.Nodup
  tableSize : owners.length = size
  isFree    : ∀ q, q ∈ free ↔ owners[q]? = some none
  owned     : ∀ q i j, q ∈ held i j ↔ owners[q]? = some (some ⟨i, j⟩)
  pagesOnce : ∀ i j, (held i j).Nodup
  total     : free.length + n = size

/-- The page lists with that of one line replaced. -/
def setHeld (held : InstNo → Nat → List Nat) (i : InstNo) (j : Nat) (ps : List Nat) : InstNo → Nat → List Nat :=
  fun i' j' => if i' = i ∧ j' = j then ps else held i' j'

section
variable {size n : Nat} {free : List Nat} {owners : List (Option Owner)} {held : InstNo → Nat → List Nat} {i : InstNo} {j : Nat}

/-- Every page that is free or held is one of the pool's. -/
theorem PoolSound.lt_of_free (h : PoolSound size free owners held n) {q : Nat} (hq : q ∈ free) : q < owners.length :=
  (List.getElem?_eq_some_iff.1 ((h.isFree q).1 hq)).1

theorem PoolSound.lt_of_held (h : PoolSound size free owners held n) {q : Nat} (hq : q ∈ held i j) : q < owners.length :=
  (List.getElem?_eq_some_iff.1 ((h.owned q i j).1 hq)).1

/-- A line that holds nothing is granted pages from the head of the free list (R8). -/
theorem PoolSound.grant (h : PoolSound size free owners held n) (hnone : held i j = []) (k : Nat) :
    PoolSound size (free.drop k) (setOwners (free.take k) (some ⟨i, j⟩) owners) (setHeld held i j (free.take k))
      (n + (free.take k).length) where
  freeOnce := h.freeOnce.sublist (List.drop_sublist k free)
  tableSize := by simpa using h.tableSize
  isFree q := by
    have hdisjoint : q ∈ free.take k → q ∉ free.drop k := fun ht hd => List.disjoint_take_drop h.freeOnce le_rfl ht hd
    have hsplit : q ∈ free ↔ q ∈ free.take k ∨ q ∈ free.drop k := by rw [← List.mem_append, List.take_append_drop]
    rw [setOwners_getElem?]
    split
    · next hq => simpa using hdisjoint hq.1
    · next hq =>
      rw [← h.isFree, hsplit]
      refine ⟨.inr, fun hor => hor.resolve_left fun ht => hq ⟨ht, ?_⟩⟩
      exact h.lt_of_free (List.mem_of_mem_take ht)
  owned q i' j' := by
    rw [setOwners_getElem?, setHeld]
    have hother (ht : q ∈ free.take k) : q ∉ held i' j' := fun hq => by
      have hfree := (h.isFree q).1 (List.mem_of_mem_take ht)
      rw [(h.owned q i' j').1 hq] at hfree
      cases hfree
    split
    · next he =>
      obtain ⟨rfl, rfl⟩ := he
      split
      · next hq => simpa using hq.1
      · next hq =>
        rw [← h.owned, hnone]
        refine iff_of_false (fun ht => hq ⟨ht, h.lt_of_free (List.mem_of_mem_take ht)⟩) List.not_mem_nil
    · next he =>
      split
      · next hq =>
        refine iff_of_false (hother hq.1) fun heq => he ?_
        cases heq
        exact ⟨rfl, rfl⟩
      · exact h.owned q i' j'
  pagesOnce i' j' := by
    unfold setHeld
    split
    · exact h.freeOnce.sublist (List.take_sublist k free)
    · exact h.pagesOnce i' j'
  total := by
    have := h.total
    simp only [List.length_drop, List.length_take]
    omega

/-- A line returns its pages to the tail of the free list (R9). -/
theorem PoolSound.giveBack (h : PoolSound size free owners held (n + (held i j).length)) :
    PoolSound size (free ++ held i j) (setOwners (held i j) none owners) (setHeld held i j []) n where
  freeOnce := by
    refine List.nodup_append.2 ⟨h.freeOnce, h.pagesOnce i j, fun q hq q' hq' he => ?_⟩
    subst he
    have hfree := (h.isFree q).1 hq
    rw [(h.owned q i j).1 hq'] at hfree
    cases hfree
  tableSize := by simpa using h.tableSize
  isFree q := by
    rw [setOwners_getElem?, List.mem_append, h.isFree]
    split
    · next hq => simp [hq.1]
    · next hq => exact ⟨fun hor => hor.resolve_right fun hm => hq ⟨hm, h.lt_of_held hm⟩, .inl⟩
  owned q i' j' := by
    rw [setOwners_getElem?, setHeld]
    split
    · next he =>
      obtain ⟨rfl, rfl⟩ := he
      split
      · simp
      · next hq =>
        rw [← h.owned]
        exact iff_of_false List.not_mem_nil fun hm => hq ⟨hm, h.lt_of_held hm⟩
    · next he =>
      split
      · next hq =>
        refine iff_of_false (fun hm => he ?_) (by simp)
        have hown := (h.owned q i j).1 hq.1
        rw [(h.owned q i' j').1 hm] at hown
        cases hown
        exact ⟨rfl, rfl⟩
      · exact h.owned q i' j'
  pagesOnce i' j' := by
    unfold setHeld
    split
    · exact List.nodup_nil
    · exact h.pagesOnce i' j'
  total := by
    have := h.total
    simp only [List.length_append]
    omega

end

/-! ### The pages of a list of lines -/

/-- The page list that line `k` of some lines has in a pool. -/
def linePages (p : Pool) (ls : List LineRun) (k : Nat) : List Nat :=
  match ls[k]? with
  | some l => if l.pool = p then l.pages else []
  | none => []

/-- How many pages some lines have in a pool. -/
def pagesOf (p : Pool) (ls : List LineRun) : Nat :=
  ((ls.filter fun l => l.pool = p).map fun l => l.pages.length).sum

theorem linePages_zero (p : Pool) (l : LineRun) (ls : List LineRun) :
    linePages p (l :: ls) 0 = if l.pool = p then l.pages else [] := rfl

theorem linePages_succ (p : Pool) (l : LineRun) (ls : List LineRun) (k : Nat) : linePages p (l :: ls) (k + 1) = linePages p ls k := by
  simp [linePages]

theorem pagesOf_cons (p : Pool) (l : LineRun) (ls : List LineRun) :
    pagesOf p (l :: ls) = (linePages p (l :: ls) 0).length + pagesOf p ls := by
  rw [linePages_zero]
  by_cases h : l.pool = p <;> simp [pagesOf, h]

/-- The page lists with those of one instance from a line upward replaced by those of some lines. -/
def setHeldFrom (held : InstNo → Nat → List Nat) (i : InstNo) (j : Nat) (p : Pool) (ls : List LineRun) : InstNo → Nat → List Nat :=
  fun i' j' => if i' = i ∧ j ≤ j' then linePages p ls (j' - j) else held i' j'

theorem setHeldFrom_cons (held : InstNo → Nat → List Nat) (i : InstNo) (j : Nat) (p : Pool) (l : LineRun) (ls : List LineRun) :
    setHeldFrom (setHeld held i j (linePages p (l :: ls) 0)) i (j + 1) p ls = setHeldFrom held i j p (l :: ls) := by
  funext i' j'
  unfold setHeldFrom setHeld
  by_cases hi : i' = i
  · obtain hlt | rfl | hgt := Nat.lt_trichotomy j' j
    · simp [hi, Nat.not_le.2 hlt, Nat.ne_of_lt hlt, show ¬ j + 1 ≤ j' by omega]
    · simp [hi]
    · have hsub : j' - j = (j' - (j + 1)) + 1 := by omega
      simp [hi, Nat.le_of_lt hgt, show j + 1 ≤ j' by omega, hsub, linePages_succ]
  · simp [hi]

/-! ### Grants and returns of an instance's lines (R8, R9) -/

theorem grantLine_line (i : InstNo) (j : Nat) (q : Pool) (k : Nat) (r : Run) :
    (grantLine i j q k r).1 = { w := 0, f := 0, pool := q, pages := (r.free q).take k } := by
  cases q <;> rfl

theorem grantLine_free (i : InstNo) (j : Nat) (q : Pool) (k : Nat) (r : Run) (p : Pool) :
    (grantLine i j q k r).2.free p = if q = p then (r.free p).drop k else r.free p := by
  cases q <;> cases p <;> rfl

theorem grantLine_owners (i : InstNo) (j : Nat) (q : Pool) (k : Nat) (r : Run) (p : Pool) :
    (grantLine i j q k r).2.owners p =
      if q = p then setOwners ((r.free p).take k) (some ⟨i, j⟩) (r.owners p) else r.owners p := by
  cases q <;> cases p <;> rfl

theorem returnLine_free (l : LineRun) (r : Run) (p : Pool) :
    (returnLine l r).free p = if l.pool = p then r.free p ++ l.pages else r.free p := by
  unfold returnLine
  cases hl : l.pool <;> cases p <;> rfl

theorem returnLine_owners (l : LineRun) (r : Run) (p : Pool) :
    (returnLine l r).owners p = if l.pool = p then setOwners l.pages none (r.owners p) else r.owners p := by
  unfold returnLine
  cases hl : l.pool <;> cases p <;> rfl

theorem Run.poolPages_congr {r q : Run} (h : r.farSize = q.farSize) (p : Pool) : r.poolPages p = q.poolPages p := by
  cases p <;> simp [Run.poolPages, h]

/-- The grant of an instance's lines in one pool, where they hold nothing before (R8). -/
theorem PoolSound.grantLines (i : InstNo) (p : Pool) (ls : List (Pool × Nat)) :
    ∀ (j : Nat) (r : Run) (held : InstNo → Nat → List Nat) (n : Nat),
    PoolSound (r.poolPages p) (r.free p) (r.owners p) held n → (∀ k, j ≤ k → held i k = []) →
    PoolSound ((grantLines i j ls r).2.poolPages p) ((grantLines i j ls r).2.free p) ((grantLines i j ls r).2.owners p)
      (setHeldFrom held i j p (grantLines i j ls r).1) (n + pagesOf p (grantLines i j ls r).1) := by
  induction ls with
  | nil =>
    intro j r held n h hnone
    have hheld : setHeldFrom held i j p [] = held := by
      funext i' j'
      unfold setHeldFrom
      split
      · next he => obtain ⟨rfl, hj⟩ := he; rw [hnone j' hj]; rfl
      · rfl
    change PoolSound _ _ _ (setHeldFrom held i j p []) n
    rw [hheld]
    exact h
  | cons l ls ih =>
    obtain ⟨q, k⟩ := l
    intro j r held n h hnone
    have hpages : (grantLine i j q k r).2.poolPages p = r.poolPages p := Run.poolPages_congr (grantLine_keeps i j q k r).2.1 p
    have hstep : PoolSound ((grantLine i j q k r).2.poolPages p) ((grantLine i j q k r).2.free p) ((grantLine i j q k r).2.owners p)
        (setHeld held i j (linePages p ((grantLine i j q k r).1 :: (Machine.grantLines i (j + 1) ls (grantLine i j q k r).2).1) 0))
        (n + (linePages p ((grantLine i j q k r).1 :: (Machine.grantLines i (j + 1) ls (grantLine i j q k r).2).1) 0).length) := by
      rw [hpages, grantLine_free, grantLine_owners, linePages_zero, grantLine_line]
      by_cases hq : q = p
      · subst hq
        simpa using h.grant (hnone j le_rfl) k
      · have hheld : setHeld held i j [] = held := by
          funext i' j'
          unfold setHeld
          split
          · next he => obtain ⟨rfl, rfl⟩ := he; exact (hnone _ le_rfl).symm
          · rfl
        simpa [hq, hheld] using h
    have hrest : ∀ m, j + 1 ≤ m → setHeld held i j
        (linePages p ((grantLine i j q k r).1 :: (Machine.grantLines i (j + 1) ls (grantLine i j q k r).2).1) 0) i m = [] :=
      fun m hm => by simp [setHeld, show m ≠ j by omega, hnone m (by omega)]
    have h2 := ih (j + 1) _ _ _ hstep hrest
    rw [setHeldFrom_cons] at h2
    simp only [Machine.grantLines, pagesOf_cons]
    rwa [Nat.add_assoc] at h2

/-- The return of an instance's lines in one pool (R9). -/
theorem PoolSound.returnLines (i : InstNo) (p : Pool) (ls : List LineRun) :
    ∀ (j : Nat) (r : Run) (held : InstNo → Nat → List Nat) (n : Nat),
    PoolSound (r.poolPages p) (r.free p) (r.owners p) held (n + pagesOf p ls) → (∀ k, held i (j + k) = linePages p ls k) →
    PoolSound ((returnLines ls r).poolPages p) ((returnLines ls r).free p) ((returnLines ls r).owners p)
      (setHeldFrom held i j p []) n := by
  induction ls with
  | nil =>
    intro j r held n h hheld
    have heq : setHeldFrom held i j p [] = held := by
      funext i' j'
      unfold setHeldFrom
      split
      · next he =>
        obtain ⟨rfl, hj⟩ := he
        rw [← hheld (j' - j), Nat.add_sub_cancel' hj]
      · rfl
    rw [heq]
    exact h
  | cons l ls ih =>
    intro j r held n h hheld
    have hpages : (returnLine l r).poolPages p = r.poolPages p := Run.poolPages_congr (returnLine_keeps l r).2.1 p
    have hfirst : held i j = linePages p (l :: ls) 0 := hheld 0
    have hstep : PoolSound ((returnLine l r).poolPages p) ((returnLine l r).free p) ((returnLine l r).owners p)
        (setHeld held i j []) (n + pagesOf p ls) := by
      rw [hpages, returnLine_free, returnLine_owners]
      rw [pagesOf_cons, ← hfirst, ← Nat.add_assoc, Nat.add_right_comm] at h
      have hback := h.giveBack
      rw [hfirst, linePages_zero] at hback
      split
      · next he => simpa [he] using hback
      · next he => simpa [he, setOwners] using hback
    have h2 := ih (j + 1) _ _ _ hstep fun k => by
      rw [← linePages_succ p l ls k, ← hheld (k + 1)]
      simp only [setHeld, show j + 1 + k = j + (k + 1) by omega]
      simp
    have heq : setHeldFrom (setHeld held i j []) i (j + 1) p [] = setHeldFrom held i j p [] := by
      funext i' j'
      simp only [setHeldFrom, setHeld, linePages, List.getElem?_nil]
      by_cases hi : i' = i
      · obtain hlt | rfl | hgt := Nat.lt_trichotomy j' j
        · simp [hi, Nat.not_le.2 hlt, Nat.ne_of_lt hlt, show ¬ j + 1 ≤ j' by omega]
        · simp [hi]
        · simp [hi, Nat.le_of_lt hgt, show j + 1 ≤ j' by omega]
      · simp [hi]
    rw [heq] at h2
    exact h2

/-- The lists and the tables of the pools stand where only the budget changes. -/
theorem Run.budget_pools (r : Run) (b : Nat) (p : Pool) :
    { r with budgetInUse := b }.poolPages p = r.poolPages p ∧ { r with budgetInUse := b }.free p = r.free p ∧
      { r with budgetInUse := b }.owners p = r.owners p := by
  cases p <;> exact ⟨rfl, rfl, rfl⟩

theorem Run.takeBack_some {x : Inst} {y : Running} (h : x.running = some y) (r : Run) :
    Run.takeBack x r = { returnLines y.lines r with budgetInUse := r.budgetInUse - y.cost } := by
  simp [Run.takeBack, h]

theorem Run.takeBack_none {x : Inst} (h : x.running = none) (r : Run) : Run.takeBack x r = r := by
  simp [Run.takeBack, h]

/-! ### The demand of the fit test (R97) -/

/-- How many pages of a pool some resolved lengths ask for. -/
def poolDemand (p : Pool) (ls : List (Pool × Nat)) : Nat :=
  ((ls.filter fun x => x.1 = p).map Prod.snd).sum

theorem poolDemand_cons (p q : Pool) (k : Nat) (ls : List (Pool × Nat)) :
    poolDemand p ((q, k) :: ls) = (if q = p then k else 0) + poolDemand p ls := by
  by_cases h : q = p <;> simp [poolDemand, h]

/-- The walk resolves every line and sums up what it asks of each pool. -/
theorem fitWalk_demand (p : Program) (c : Counts) (ls : List LineProg) : ∀ (j : Nat) (d : Counts),
    (fitWalk p c j ls d).1.length = ls.length ∧
      (fitWalk p c j ls d).2.near = d.near + poolDemand .near ((fitWalk p c j ls d).1.zip (ls.map LineProg.length)) ∧
      (fitWalk p c j ls d).2.far = d.far + poolDemand .far ((fitWalk p c j ls d).1.zip (ls.map LineProg.length)) := by
  induction ls with
  | nil => intro j d; exact ⟨rfl, rfl, rfl⟩
  | cons l ls ih =>
    intro j d
    obtain ⟨hlen, hnear, hfar⟩ := ih (j + 1) (demandLine p j l (resolve c l d.near) d)
    simp only [fitWalk, List.length_cons, List.map_cons, List.zip_cons_cons, poolDemand_cons, hlen, hnear, hfar]
    cases resolve c l d.near <;> simp [demandLine, Nat.add_assoc]

/-- A program that fits the free counts asks of no pool more than is free, and every line is resolved. -/
theorem fitTest_demand {p : Program} {c : Counts} (h : fits p c = true) :
    (fitTest p c).1.length = p.lines.length ∧
      poolDemand .near ((fitTest p c).1.zip (p.lines.map LineProg.length)) ≤ c.near ∧
      poolDemand .far ((fitTest p c).1.zip (p.lines.map LineProg.length)) ≤ c.far := by
  obtain ⟨hlen, hnear, hfar⟩ := fitWalk_demand p c p.lines 0 { far := 0, near := 0, budget := 0 }
  obtain ⟨hf, hn, -⟩ := (fits_iff p c).1 h
  refine ⟨hlen, ?_, ?_⟩
  · have := hnear.symm.trans_le hn
    rwa [Nat.zero_add] at this
  · have := hfar.symm.trans_le hf
    rwa [Nat.zero_add] at this

/-- Where each pool has the pages asked for, every line is granted as many as its length (R8). -/
theorem grantLines_pages (i : InstNo) (ls : List (Pool × Nat)) : ∀ (j : Nat) (r : Run),
    (∀ p, poolDemand p ls ≤ (r.free p).length) → (grantLines i j ls r).1.map (fun l => l.pages.length) = ls.map Prod.snd := by
  induction ls with
  | nil => intro j r _; rfl
  | cons l ls ih =>
    obtain ⟨q, k⟩ := l
    intro j r h
    have hk : k ≤ (r.free q).length := by
      have := h q
      rw [poolDemand_cons, if_pos rfl] at this
      omega
    simp only [grantLines, List.map_cons]
    rw [ih, grantLine_line]
    · simp [hk]
    · intro p
      have := h p
      rw [poolDemand_cons] at this
      rw [grantLine_free]
      split
      · next he => subst he; simp at this ⊢; omega
      · next he => simpa [he] using this

/-! ### The pools of a state -/

section
variable {c : Instr} {s t : State}

theorem Inst.pageList_eq (x : Inst) (p : Pool) (j : Nat) :
    x.pageList p j = (x.running.map fun r => linePages p r.lines j).getD [] := by
  unfold Inst.pageList linePages
  cases x.running <;> rfl

theorem Inst.pagesIn_eq (x : Inst) (p : Pool) : x.pagesIn p = (x.running.map fun r => pagesOf p r.lines).getD 0 := by
  unfold Inst.pagesIn pagesOf
  cases x.running <;> rfl

/-- The pages of a list of lines are read from their pools and page lists alone. -/
theorem linePages_congr {ls ls' : List LineRun} (h : ls.map (fun l => (l.pool, l.pages)) = ls'.map fun l => (l.pool, l.pages))
    (p : Pool) (k : Nat) : linePages p ls k = linePages p ls' k := by
  have hk := congrArg (fun l => l[k]?) h
  simp only [List.getElem?_map] at hk
  unfold linePages
  cases hl : ls[k]? <;> cases hl' : ls'[k]? <;> simp_all

theorem pagesOf_congr {ls ls' : List LineRun} (h : ls.map (fun l => (l.pool, l.pages)) = ls'.map fun l => (l.pool, l.pages))
    (p : Pool) : pagesOf p ls = pagesOf p ls' := by
  have heq (ls : List LineRun) :
      pagesOf p ls = (((ls.map fun l => (l.pool, l.pages)).filter fun x => x.1 = p).map fun x => x.2.length).sum := by
    simp [pagesOf, List.filter_map, Function.comp_def]
  rw [heq, heq, h]

/-- What is read of the pages of an instance follows from what it holds. -/
theorem Inst.pages_congr {x y : Inst} (h : x.holdings = y.holdings) (p : Pool) :
    (∀ j, x.pageList p j = y.pageList p j) ∧ x.pagesIn p = y.pagesIn p ∧
      x.running.map (fun r => r.lines.map fun l => l.pages.length) = y.running.map fun r => r.lines.map fun l => l.pages.length := by
  simp only [Inst.pageList_eq, Inst.pagesIn_eq]
  unfold Inst.holdings at h
  cases hx : x.running with
  | none => cases hy : y.running <;> simp_all
  | some a =>
    cases hy : y.running with
    | none => simp_all
    | some b =>
      have hlines : a.lines.map (fun l => (l.pool, l.pages)) = b.lines.map fun l => (l.pool, l.pages) := by
        simp only [hx, hy, Option.map_some, Option.some.injEq, Prod.mk.injEq] at h
        exact h.2
      have hlengths := congrArg (List.map fun x : Pool × List Nat => x.2.length) hlines
      simp only [List.map_map] at hlengths
      refine ⟨fun j => ?_, ?_, ?_⟩
      · simp [linePages_congr hlines p j]
      · simp [pagesOf_congr hlines p]
      · simpa [Function.comp_def] using hlengths

/-- A pool of a state is in order where its lists and its table are. -/
theorem poolWf_iff (s : State) (r : Run) (p : Pool) :
    PoolWf s r p ↔ PoolSound (r.poolPages p) (r.free p) (r.owners p) (fun i j => (s.inst i).pageList p j)
      (allInsts.map fun i => (s.inst i).pagesIn p).sum :=
  ⟨fun h => ⟨h.freeOnce, h.tableSize, h.free, h.owned, h.pagesOnce, h.total⟩,
    fun h => ⟨h.freeOnce, h.tableSize, h.isFree, h.owned, h.pagesOnce, h.total⟩⟩

/-- A freshly built pool is free in whole, in ascending order (R20). -/
theorem poolSound_build (rate : SampleRate) (size : FarSize) (pol : Polarity) (p : Pool) :
    PoolSound ((Run.build rate size pol).poolPages p) ((Run.build rate size pol).free p) ((Run.build rate size pol).owners p)
      (fun _ _ => []) 0 := by
  have hbuilt (n : Nat) : PoolSound n (List.range n) (List.replicate n none) (fun _ _ => []) 0 := by
    refine ⟨List.nodup_range, List.length_replicate, fun q => ?_, fun q i j => ?_, fun _ _ => List.nodup_nil, by simp⟩
    · simp [List.getElem?_replicate]
    · rw [List.getElem?_replicate]
      split <;> simp
  cases p
  · exact hbuilt 32
  · exact hbuilt size.pages

theorem State.HoldingMove.pools (h : s.HoldingMove t) (hpools : ∀ r p, s.run = some r → PoolWf s r p) :
    ∀ r p, t.run = some r → PoolWf t r p := by
  intro u p hu
  rw [poolWf_iff]
  cases h with
  | same hrun hsame =>
    have hlists : (fun i j => (t.inst i).pageList p j) = fun i j => (s.inst i).pageList p j :=
      funext fun i => funext fun j => (Inst.pages_congr (hsame i) p).1 j
    have hcounts : (fun i => (t.inst i).pagesIn p) = fun i => (s.inst i).pagesIn p :=
      funext fun i => (Inst.pages_congr (hsame i) p).2.1
    rw [hlists, hcounts]
    exact (poolWf_iff s u p).1 (hpools u p (hrun ▸ hu))
  | admission i r q hrun _ hnone hfits ht hinst =>
    obtain rfl := Option.some.inj (hu.symm.trans ht)
    have hsound := (poolWf_iff s r p).1 (hpools r p hrun)
    have hempty (k : Nat) : (s.inst i).pageList p k = [] := by simp [Inst.pageList_eq, hnone]
    have hgrant := hsound.grantLines i p ((fitTest q s.freeCounts).1.zip (q.lines.map LineProg.length)) 0 r _ _
      fun k _ => hempty k
    have hself : (t.inst i).running = some (runningStart r.rate s.tempo.tempo q
        (grantLines i 0 ((fitTest q s.freeCounts).1.zip (q.lines.map LineProg.length)) r).1
        (fitTest q s.freeCounts).2.budget) := by
      rw [hinst, if_pos rfl]; rfl
    have hlists : (fun i' j => (t.inst i').pageList p j) = setHeldFrom (fun i' j => (s.inst i').pageList p j) i 0 p
        (grantLines i 0 ((fitTest q s.freeCounts).1.zip (q.lines.map LineProg.length)) r).1 := by
      funext i' j
      unfold setHeldFrom
      by_cases hi : i' = i
      · subst hi
        simp [Inst.pageList_eq, hself, runningStart]
      · simp [hinst, hi]
    have hcounts := sum_allInsts_update (f := fun j => (s.inst j).pagesIn p) (g := fun j => (t.inst j).pagesIn p) i
      fun j hj => by rw [hinst, if_neg hj]
    have hold : (s.inst i).pagesIn p = 0 := by simp [Inst.pagesIn_eq, hnone]
    have hnew : (t.inst i).pagesIn p =
        pagesOf p (grantLines i 0 ((fitTest q s.freeCounts).1.zip (q.lines.map LineProg.length)) r).1 := by
      simp [Inst.pagesIn_eq, hself, runningStart]
    simp only [hold, hnew, Nat.add_zero] at hcounts
    rw [hlists, hcounts]
    obtain ⟨hsize, hfree, howners⟩ := Run.budget_pools _ _ p
    rw [hsize, hfree, howners]
    exact hgrant
  | release i hrun hinst =>
    rw [hrun] at hu
    obtain ⟨r, hr, rfl⟩ := Option.map_eq_some_iff.1 hu
    have hsound := (poolWf_iff s r p).1 (hpools r p hr)
    have hcounts := sum_allInsts_update (f := fun j => (s.inst j).pagesIn p) (g := fun j => (t.inst j).pagesIn p) i
      fun j hj => by rw [hinst, if_neg hj]
    have hnew : (t.inst i).pagesIn p = 0 := by rw [hinst, if_pos rfl]; rfl
    simp only [hnew, Nat.add_zero] at hcounts
    have hlists : (fun i' j => (t.inst i').pageList p j) = setHeldFrom (fun i' j => (s.inst i').pageList p j) i 0 p [] := by
      funext i' j
      unfold setHeldFrom
      by_cases hi : i' = i
      · subst hi
        simp [hinst, Inst.released, Inst.pageList_eq, linePages]
      · simp [hinst, hi]
    rw [hlists]
    have hback (ls : List LineRun) (hlist : ∀ k, (s.inst i).pageList p k = linePages p ls k)
        (hcount : (s.inst i).pagesIn p = pagesOf p ls) :
        PoolSound ((returnLines ls r).poolPages p) ((returnLines ls r).free p) ((returnLines ls r).owners p)
          (setHeldFrom (fun i' j => (s.inst i').pageList p j) i 0 p []) (allInsts.map fun i => (t.inst i).pagesIn p).sum := by
      refine PoolSound.returnLines i p ls 0 r _ _ ?_ fun k => by rw [Nat.zero_add]; exact hlist k
      rw [← hcount, hcounts]
      exact hsound
    cases hy : (s.inst i).running with
    | some y =>
      have hlines := hback y.lines (fun k => by simp [Inst.pageList_eq, hy]) (by simp [Inst.pagesIn_eq, hy])
      obtain ⟨hsize, hfree, howners⟩ := Run.budget_pools (returnLines y.lines r) (r.budgetInUse - y.cost) p
      rw [Run.takeBack_some hy, hsize, hfree, howners]
      exact hlines
    | none =>
      rw [Run.takeBack_none hy]
      exact hback [] (fun k => by simp [Inst.pageList_eq, hy, linePages]) (by simp [Inst.pagesIn_eq, hy, pagesOf])
  | fresh hrun hnone =>
    obtain h | ⟨rate, size, pol, h⟩ := hrun
    · rw [h] at hu; cases hu
    · obtain rfl := Option.some.inj (hu.symm.trans h)
      simpa [Inst.pageList_eq, Inst.pagesIn_eq, hnone] using poolSound_build rate size pol p

end

end Sys2Proof.Machine
end

section
/-! Every step keeps the pools sound, and with sound pools no command faults: obligations O58 and O54 (R3, R6, R7). -/

namespace Sys2Proof.Machine

section
variable {c : Instr} {s t : State}

/-- The lengths of an instance's page lists follow its program (R7). -/
theorem State.HoldingMove.lengths (h : s.HoldingMove t) (hs : ∀ i, (s.inst i).lengthsWf) : ∀ i, (t.inst i).lengthsWf := by
  have none_wf {x : Inst} (h : x.running = none) : x.lengthsWf := fun p r _ hr => by rw [h] at hr; cases hr
  intro i
  cases h with
  | same hrun hsame hlengths =>
    intro p r hp hr
    have hholds := (Inst.pages_congr (hsame i) .near).2.2
    rw [hr, Option.map_some] at hholds
    obtain ⟨r', hr', hlens⟩ := Option.map_eq_some_iff.1 hholds.symm
    have hlines := hlengths i (by simp [Inst.holdings, hr'])
    rw [hp, Option.map_some] at hlines
    obtain ⟨p', hp', heq⟩ := Option.map_eq_some_iff.1 hlines.symm
    rw [← hlens, ← heq]
    exact hs i p' r' hp' hr'
  | admission j r q hrun hprogram _ hfits _ hinst =>
    rw [hinst]
    split
    · next he =>
      subst he
      intro p y hp hy
      obtain rfl : q = p := Option.some.inj (hprogram.symm.trans hp)
      obtain rfl := Option.some.inj hy
      obtain ⟨hlen, hnear, hfar⟩ := fitTest_demand hfits
      have hdemand : ∀ p, poolDemand p ((fitTest q s.freeCounts).1.zip (q.lines.map LineProg.length)) ≤ (r.free p).length := by
        simp only [State.freeCounts, hrun] at hnear hfar ⊢
        intro p
        cases p
        · exact hnear
        · exact hfar
      refine (grantLines_pages i _ 0 r hdemand).trans ?_
      exact List.map_snd_zip (by simp [hlen])
    · exact hs i
  | release j _ hinst =>
    rw [hinst]
    split
    · exact none_wf rfl
    · exact hs i
  | fresh _ hnone => exact none_wf (hnone i)

/-- Every address within a pool's pages is one of its words (R3, R11). -/
theorem translate_lt {pages : List Nat} {n k : Nat} (hn : 0 < n) (h : ∀ q ∈ pages, q < n) : translate pages k < n * 2048 := by
  have hpage : pages.getD (k / 2048) 0 < n := by
    rw [List.getD_eq_getElem?_getD]
    cases hq : pages[k / 2048]? with
    | none => exact hn
    | some q => exact h q (List.mem_of_getElem? hq)
  simp only [translate, pageWords]
  have : pages.getD (k / 2048) 0 * 2048 + 2048 ≤ n * 2048 := by
    rw [← Nat.succ_mul]; exact Nat.mul_le_mul_right _ hpage
  have := Nat.mod_lt k (show 0 < 2048 by decide)
  omega

theorem FarSize.le_pages (f : FarSize) : 1024 ≤ f.pages := by
  cases f <;> decide

/-- Every page that a line holds is one of its pool's (R6). -/
theorem PoolInv.page_lt (hs : PoolInv s) {r : Run} (hrun : s.run = some r) {i : InstNo} {y : Running} (hy : (s.inst i).running = some y)
    {l : LineRun} (hl : l ∈ y.lines) {q : Nat} (hq : q ∈ l.pages) : q < r.poolPages l.pool := by
  have hwf := hs.pools r l.pool hrun
  obtain ⟨j, hj⟩ := List.mem_iff_getElem?.1 hl
  have hmem : q ∈ (s.inst i).pageList l.pool j := by simpa [Inst.pageList, hy, hj] using hq
  rw [← hwf.tableSize]
  exact (List.getElem?_eq_some_iff.1 ((hwf.owned q i j).1 hmem)).1

/-- Every word that the part may write back lies in the FAR pool. -/
theorem PoolInv.reaches_lt (hs : PoolInv s) {r : Run} (hrun : s.run = some r) {a : Nat} (ha : s.reaches a) :
    a < r.farSize.pages * 2048 := by
  have hsize := r.farSize.le_pages
  obtain h | ⟨i, y, l, k, hy, hl, rfl⟩ := ha
  · omega
  · refine translate_lt (by omega) fun q hq => ?_
    have hlt := hs.page_lt hrun hy hl hq
    revert hlt
    cases l.pool
    · exact fun hlt => Nat.lt_of_lt_of_le (show q < 32 from hlt) (by omega)
    · exact fun hlt => hlt

/-- Queued write-backs lie in the FAR pool, and in SETUP nothing is in flight (R159, R161). -/
structure ServicePoolInv (s : State) : Prop where
  corrections : ∀ r, s.run = some r → ∀ e ∈ s.corrections, e.addr < r.farSize.pages * 2048
  setup       : s.run = none → s.corrections = [] ∧ s.serviceDue = none ∧ s.access = none

theorem PoolInv.service (hs : PoolInv s) : ServicePoolInv s := ⟨hs.corrections, hs.setup⟩

/-- Changing other fields leaves the memory service in flight. -/
theorem ServicePoolInv.same (hs : ServicePoolInv s) (hrun : t.run = s.run) (hq : t.corrections = s.corrections)
    (hd : t.serviceDue = s.serviceDue) (ha : t.access = s.access) : ServicePoolInv t :=
  ⟨by rw [hrun, hq]; exact hs.corrections, by rw [hrun, hq, hd, ha]; exact hs.setup⟩

theorem State.PlainMove.servicePoolInv (h : s.PlainMove c t) (hs : PoolInv s) : ServicePoolInv t := by
  cases h with
  | corrections l h =>
    refine ⟨fun r hr e he => hs.corrections r hr e (h.subset he), fun hn => ?_⟩
    obtain ⟨hq, hd, ha⟩ := hs.setup hn
    exact ⟨List.sublist_nil.1 (hq ▸ h), hd, ha⟩
  | offer a v _ _ ha hrun =>
    refine ⟨fun r hr e he => ?_, fun hn => absurd (hs.setup hn).2.2 (hrun hn)⟩
    obtain he | he := List.mem_append.1 he
    · exact hs.corrections r hr e he
    · obtain rfl := List.mem_singleton.1 he
      exact hs.reaches_lt hr ha
  | access a h =>
    refine ⟨hs.corrections, fun hn => ?_⟩
    obtain ⟨hq, hd, ha⟩ := hs.setup hn
    exact ⟨hq, hd, h hn ha⟩
  | serviceDue n h =>
    refine ⟨hs.corrections, fun hn => ?_⟩
    obtain ⟨hq, hd, ha⟩ := hs.setup hn
    exact ⟨hq, h hn, ha⟩
  | _ => exact hs.service.same rfl rfl rfl rfl

theorem Move.servicePoolInv (h : Move c s t) (hs : PoolInv s) : ServicePoolInv t := by
  cases h with
  | quiet h =>
    cases h with
    | plain h => exact h.servicePoolInv hs
    | engine h =>
      have hq : t.corrections = s.corrections := by rw [h.same]
      have hd : t.serviceDue = s.serviceDue := by rw [h.same]
      have ha : t.access = s.access := by rw [h.same]
      refine ⟨fun r hr e he => ?_, fun hn => ?_⟩
      · obtain ⟨hn, -⟩ | ⟨u, q, hu, hqr, -, hsize⟩ := h.run_cases
        · rw [hn] at hr; cases hr
        · obtain rfl : u = r := Option.some.inj (hu.symm.trans hr)
          rw [hsize]
          exact hs.corrections q hqr e (hq ▸ he)
      · obtain ⟨-, hn'⟩ | ⟨u, q, hu, -⟩ := h.run_cases
        · rw [hq, hd, ha]; exact hs.setup hn'
        · rw [hn] at hu; cases hu
    | tempo => exact hs.service.same rfl rfl rfl rfl
    | cue => exact hs.service.same rfl rfl rfl rfl
  | library => exact hs.service.same rfl rfl rfl rfl
  | advance => exact hs.service.same rfl rfl rfl rfl
  | closeWindow => exact hs.service.same rfl rfl rfl rfl
  | enterRun ticks rate size pol hrun =>
    refine ⟨fun r _ e he => ?_, fun hn => by cases hn⟩
    change e ∈ s.corrections at he
    rw [(hs.setup hrun).1] at he
    cases he
  | softEngine r => exact ⟨fun _ _ e he => absurd he List.not_mem_nil, fun hn => by cases hn⟩
  | assertReset | powerUp => exact ⟨fun _ _ e he => absurd he List.not_mem_nil, fun _ => ⟨rfl, rfl, rfl⟩⟩

theorem Move.poolInv (h : Move c s t) (hs : PoolInv s) : PoolInv t where
  instances := h.instancesInv hs.instances
  programs := h.programsInv hs.programs
  pools := (h.holdingMove hs.instances).pools hs.pools
  lengths := (h.holdingMove hs.instances).lengths hs.lengths
  corrections := (h.servicePoolInv hs).corrections
  setup := (h.servicePoolInv hs).setup

/-- The queue of commands is no part of the pools. -/
theorem PoolInv.pending (hs : PoolInv s) (l : List Instr) : PoolInv { s with pending := l } where
  instances := hs.instances.congr ⟨rfl, rfl, rfl, rfl, rfl, fun _ => ⟨rfl, rfl, rfl, rfl⟩⟩
  programs := ⟨hs.programs.library, hs.programs.instances⟩
  pools r p hr :=
    have h := hs.pools r p hr
    ⟨h.freeOnce, h.tableSize, h.free, h.owned, h.pagesOnce, h.total⟩
  lengths := hs.lengths
  corrections := hs.corrections
  setup := hs.setup

end

/-- Settles O58: each move keeps the pools sound; a step is a chain of moves. -/
theorem poolInvariantKept : Obligations.PoolInvariantKept := fun _ _ hs h =>
  step_keeps (fun _ l hs => hs.pending l) Move.poolInv h hs

/-! ### No command faults (log 18) -/

section
variable {s t : State}

/-- A line that an instance holds has at least one page (R7, R134). -/
theorem PoolInv.pages_ne_nil (hs : PoolInv s) {i : InstNo} {y : Running} (hy : (s.inst i).running = some y) {l : LineRun}
    (hl : l ∈ y.lines) : l.pages ≠ [] := by
  have hstate : (s.inst i).state ≠ .empty := fun h => by
    have := hs.instances.holds i
    rw [hy, h] at this
    cases this
  obtain ⟨p, hp⟩ := Option.isSome_iff_exists.1 (hs.instances.program_isSome hstate)
  have hmem : l.pages.length ∈ p.lines.map LineProg.length :=
    hs.lengths i p y hp hy ▸ List.mem_map.2 ⟨l, hl, rfl⟩
  obtain ⟨q, hq, hlen⟩ := List.mem_map.1 hmem
  have hpos := ((hs.programs.instances i p hp).lines q hq).1
  intro hnil
  rw [hnil] at hlen
  simp at hlen
  omega

/-- With sound pools every word that the part may reach exists (R3). -/
theorem PoolInv.wordsExist (hs : PoolInv s) : s.wordsExist = true := by
  unfold State.wordsExist
  split
  · rfl
  · next r hrun =>
    rw [Bool.and_eq_true, List.all_eq_true, List.all_eq_true]
    refine ⟨fun i _ => ?_, fun e he => decide_eq_true (hs.corrections r hrun e he)⟩
    split
    · next y hy =>
      rw [List.all_eq_true]
      intro l hl
      have hpages := hs.pages_ne_nil hy hl
      simp only [Bool.and_eq_true, Bool.not_eq_true', List.isEmpty_eq_false_iff, List.all_eq_true, decide_eq_true_eq]
      exact ⟨hpages, fun q hq => hs.page_lt hrun hy hl hq⟩
    · rfl

/-- The words exist or not by the pools, the instances and the correction queue alone. -/
theorem State.wordsExist_congr (hrun : t.run = s.run) (hinst : t.instances = s.instances) (hq : t.corrections = s.corrections) :
    t.wordsExist = s.wordsExist := by
  unfold State.wordsExist State.inst
  rw [hrun, hinst, hq]

theorem holdoverCheck_keeps (s : State) :
    s.holdoverCheck.run = s.run ∧ s.holdoverCheck.instances = s.instances ∧ s.holdoverCheck.corrections = s.corrections := by
  unfold State.holdoverCheck
  split <;> exact ⟨by simp, by simp, by simp⟩

theorem frame_next (inputs : Vector Int 32) (env : FrameEnv) (h : s.wordsExist = true) : ∃ t, s.frame inputs env = .next t :=
  ⟨_, by rw [State.frame, if_pos h]⟩

theorem execAfsEdge_next (ticks : Nat) (lanes : InputLanes) (env : FrameEnv) (h : s.wordsExist = true) :
    ∃ t, execAfsEdge ticks lanes env s = .next t := by
  unfold execAfsEdge
  split
  · exact ⟨_, rfl⟩
  · dsimp only
    split
    · exact ⟨_, rfl⟩
    · split
      · unfold State.lockedEdge
        split
        · exact frame_next _ _ h
        · exact ⟨_, rfl⟩
      · exact ⟨_, rfl⟩

theorem execEdgeWatchExpiry_next (env : FrameEnv) (h : s.wordsExist = true) : ∃ t, execEdgeWatchExpiry env s = .next t := by
  unfold execEdgeWatchExpiry
  split
  · exact ⟨_, rfl⟩
  · split
    · exact ⟨_, rfl⟩
    · dsimp only
      split
      · obtain ⟨hrun, hinst, hq⟩ := holdoverCheck_keeps
          (s.modMonitor fun m => ((m.pass (ticksLeft s.clockRate.watch _)).countBad).markNow)
        exact frame_next _ _ ((State.wordsExist_congr (s := s) hrun hinst hq).trans h)
      · exact ⟨_, rfl⟩

theorem execInternalFrameTimer_next (env : FrameEnv) (h : s.wordsExist = true) : ∃ t, execInternalFrameTimer env s = .next t := by
  unfold execInternalFrameTimer
  split
  · exact ⟨_, rfl⟩
  · split
    · exact ⟨_, rfl⟩
    · exact frame_next _ _ h

end

/-- Settles O54: only the frame starts and the service event look at the words, and with sound pools these exist. -/
theorem noCommandFaults : Obligations.NoCommandFaults := by
  intro c s hs
  have hwords := hs.wordsExist
  cases c with
  | afsEdge ticks lanes env => exact execAfsEdge_next ticks lanes env hwords
  | edgeWatchExpiry env => exact execEdgeWatchExpiry_next env hwords
  | internalFrameTimer env => exact execInternalFrameTimer_next env hwords
  | serviceEvent us => exact ⟨s.service us, if_pos hwords⟩
  | tapEdge =>
    change ∃ t, execTapEdge s = .next t
    unfold execTapEdge
    split
    · split <;> exact ⟨_, rfl⟩
    · exact ⟨_, rfl⟩
  | _ => exact ⟨_, rfl⟩

end Sys2Proof.Machine
end

section
/-! Moves toward targets, the damp stage and the delay-time stage: obligations O47, O48 and O49 (R31, R32, R38, R57 to R67). -/

namespace Sys2Proof.Machine

/-! ### Clamps and moves (R32, R59) -/

theorem clampInt_eq_max_min {lo hi : Int} (h : lo ≤ hi) (x : Int) : clampInt lo hi x = max lo (min hi x) := by
  unfold clampInt
  split
  · omega
  · split <;> omega

/-- A value moved for `n` frames: its target once the steps add up to the distance, and as far toward it as they go before that. -/
theorem moveInt_iterate {step : Nat} (hstep : 0 < step) (target cur : Int) (n : Nat) :
    (moveInt step · target)^[n] cur =
      if (target - cur).natAbs ≤ step * n then target else if cur < target then cur + step * n else cur - step * n := by
  induction n with
  | zero =>
    simp only [Function.iterate_zero, id, Nat.mul_zero, Nat.cast_zero, Int.mul_zero]
    split
    · omega
    · split <;> omega
  | succ n ih =>
    rw [Function.iterate_succ_apply', ih, Nat.mul_succ]
    push_cast
    rw [Int.mul_add, Int.mul_one, ← Nat.cast_mul]
    generalize step * n = k
    unfold moveInt
    simp only [Int.natAbs_natCast]
    split_ifs <;> omega

/-- Values that are never negative move as integers do. -/
theorem moveNat_cast (step cur target : Nat) : ((moveNat step cur target : Nat) : Int) = moveInt step cur target := by
  unfold moveNat moveInt
  simp only [Int.natAbs_natCast]
  split_ifs <;> omega

theorem moveNat_iterate_cast (step target cur n : Nat) :
    (((moveNat step · target)^[n] cur : Nat) : Int) = (moveInt step · target)^[n] (cur : Int) :=
  (Function.Semiconj.iterate_right (f := ((↑) : Nat → Int)) (fun cur => moveNat_cast step cur target) n) cur

/-- A move reaches its target exactly when the steps add up to the distance (R32). -/
theorem moveInt_iterate_eq_iff {step : Nat} (hstep : 0 < step) (target cur : Int) (n : Nat) :
    (moveInt step · target)^[n] cur = target ↔ (target - cur).natAbs ≤ step * n := by
  rw [moveInt_iterate hstep, ← Nat.cast_mul]
  generalize step * n = k
  split_ifs <;> omega

/-- Settles O48: the value after n frames, in closed form, meets the target where n steps cover the distance. -/
theorem gainsSlewToTheirTargets : Obligations.GainsSlewToTheirTargets := by
  refine ⟨fun step hstep n => ⟨fun cur target => moveInt_iterate_eq_iff hstep target cur n, fun cur target => ?_, fun cur target h => ?_⟩,
    fun p t => ⟨⟨rfl, rfl, rfl, rfl⟩, ⟨rfl, rfl, rfl, rfl⟩, ⟨rfl, rfl, rfl, rfl⟩, rfl, rfl, fun st hst => ?_⟩⟩
  · rw [← moveInt_iterate_eq_iff hstep, ← moveNat_iterate_cast, Nat.cast_inj]
  · rw [moveInt_iterate hstep]
    have h' : step * n ≤ (target - cur).natAbs := by exact_mod_cast h
    rw [← Nat.cast_mul]
    generalize step * n = k at *
    split_ifs <;> omega
  · cases st with
    | held => exact absurd rfl hst
    | _ => exact ⟨rfl, rfl⟩

/-! ### The damp stage (R38) -/

/-- The low-pass is a rounded mean of the read and the previous value, with weights 32768 − d and d. -/
theorem dampStep_eq_mean (d : Nat) (r prev : Int) :
    dampStep d r prev = (r * (32768 - d) + prev * d + 0) / ((32768 - d) + (d : Int)) := by
  unfold dampStep
  rw [show (32768 - (d : Int)) + d = 32768 by ring, show r * (32768 - (d : Int)) + prev * d + 0 = r * 32768 + d * (prev - r) by ring,
    Int.add_comm (r * 32768), Int.add_mul_ediv_right _ _ (by decide), Int.add_comm]

theorem min_le_dampStep {d : Nat} (hd : d ≤ 32767) (r prev : Int) : min r prev ≤ dampStep d r prev := by
  rw [dampStep_eq_mean]
  exact min_le_weightedMean (by omega) (by omega) (by omega) le_rfl

theorem dampStep_le_max {d : Nat} (hd : d ≤ 32767) (r prev : Int) : dampStep d r prev ≤ max r prev := by
  rw [dampStep_eq_mean]
  exact weightedMean_le_max (by omega) (by omega) (by omega) (by omega)

theorem sampleOk_dampStep {d : Nat} (hd : d ≤ 32767) {r prev : Int} (hr : sampleOk r) (hprev : sampleOk prev) :
    sampleOk (dampStep d r prev) :=
  sampleOk_of_between hr hprev (min_le_dampStep hd r prev) (dampStep_le_max hd r prev)

/-- Settles O47: the fields of a tap's frame are the stages' own, and the damp stage is a mean of the read and the previous value. -/
theorem dampLiesBetween : Obligations.DampLiesBetween := by
  refine ⟨fun c t u s => ⟨rfl, fun h => ?_, fun r h => ?_, rfl, rfl⟩, fun _ _ _ => ⟨rfl, rfl⟩, fun d r prev hd hr hprev => ?_⟩
  · simp [tapFrame, h]
  · simp [tapFrame, h]
  · refine ⟨rfl, ?_, min_le_dampStep hd r prev, dampStep_le_max hd r prev, sampleOk_dampStep hd hr hprev⟩
    rintro rfl
    simp [dampStep]

/-! ### The delay-time stage (R57 to R67) -/

/-- The move of the delay, by its distance from the target (R59). -/
theorem glideStep_eq (glide value target : Nat) :
    glideStep glide value target =
      if glide = 0 then target
      else if ((target : Int) - value).natAbs ≤ glide then target
      else if value < target then value + glide else value - glide := by
  unfold glideStep moveNat
  split_ifs <;> omega

theorem delayTarget_eq (rate : SampleRate) (tempo : Nat) (t : TapProg) :
    delayTarget rate tempo t =
      match t.source with
      | .fixed => t.fixed
      | .tempo => min ((2 * (rate.hz * 32000 * t.ticks) + tempo) / (2 * tempo)) 67108352 := by
  cases h : t.source <;> simp [delayTarget, h, tempoTarget, roundDiv, maxTarget]

theorem modOffset_eq (t : TapProg) (v0 v1 : Int) :
    modOffset t v0 v1 =
      match t.lfo with
      | .none => 0
      | .lfo0 => (t.depth : Int) * v0 / 32768
      | .lfo1 => (t.depth : Int) * v1 / 32768 := by
  cases h : t.lfo <;> simp [modOffset, h]

/-- The delay on a line of at least one page (R67). -/
theorem tapDelay_cast {len : Nat} (hlen : 2048 ≤ len) (glide : Nat) (offset : Int) :
    (tapDelay glide offset len : Int) = max 256 (min (((len : Int) - 2) * 256) (glide + offset)) := by
  unfold tapDelay
  rw [clampInt_eq_max_min (by omega)]
  omega

theorem tapDelay_mem {len : Nat} (hlen : 2048 ≤ len) (glide : Nat) (offset : Int) :
    256 ≤ tapDelay glide offset len ∧ tapDelay glide offset len ≤ (len - 2) * 256 := by
  have h := tapDelay_cast hlen glide offset
  omega

/-- The triangle keeps within 16 bits (R63). -/
theorem triangle_mem {q : Nat} (hq : q < 65536) : -32768 ≤ triangle q ∧ triangle q ≤ 32767 := by
  unfold triangle
  split <;> omega

/-- Settles O49: each stage's formula, and the clamp onto the line. -/
theorem delayIsFormedAndClamped : Obligations.DelayIsFormedAndClamped := by
  refine ⟨fun c t u => ?_, fun phase hphase => ?_⟩
  · intro target glide offset hlen
    have htarget : delayTarget c.rate c.tempo t = target := delayTarget_eq ..
    have hglide : glideStep c.glide u.glide (delayTarget c.rate c.tempo t) = glide := by rw [htarget]; exact glideStep_eq ..
    have hoffset : modOffset t c.v0 c.v1 = offset := modOffset_eq ..
    have hdelay : frameDelay c t u = tapDelay glide offset (c.lineOf t).len := by rw [frameDelay, hglide, hoffset]
    rw [hdelay]
    exact ⟨tapDelay_cast hlen glide offset, (tapDelay_mem hlen glide offset).1, (tapDelay_mem hlen glide offset).2,
      fun s => ⟨hdelay, htarget, hglide⟩⟩
  · have hq : phase / 65536 < 65536 := by omega
    obtain ⟨hlo, hhi⟩ := triangle_mem hq
    refine ⟨?_, hlo, hhi, clampInt_eq_max_min (by decide) _⟩
    simp only [lfoValue, triangle]
    split_ifs <;> omega

end Sys2Proof.Machine
end

section
/-! Every running field stays in its range, and with them the tail monitor's counts: obligation O59 (R27, R30, R33, R61, R109, R112). -/

namespace Sys2Proof.Machine

/-! ### Delay targets, increments and gains -/

/-- A rounded quotient between two bounds. -/
theorem le_roundDiv {a b k : Nat} (hb : 0 < b) (h : k * b ≤ a) : k ≤ roundDiv a b := by
  unfold roundDiv
  rw [Nat.le_div_iff_mul_le (by omega)]
  have : k * (2 * b) = 2 * (k * b) := by ring
  omega

theorem roundDiv_le {a b k : Nat} (hb : 0 < b) (h : 2 * a < (2 * k + 1) * b) : roundDiv a b ≤ k := by
  unfold roundDiv
  rw [← Nat.lt_add_one_iff, Nat.div_lt_iff_lt_mul (by omega)]
  have : (k + 1) * (2 * b) = (2 * k + 1) * b + b := by ring
  omega

/-- A delay target within the limits of its tap and of the tempo lies within the range of targets (R57, R58). -/
theorem delayTarget_mem (rate : SampleRate) {tempo n : Nat} (htempo : 3000 ≤ tempo ∧ tempo ≤ 30000) {t : TapProg} (ht : t.wf n) :
    256 ≤ delayTarget rate tempo t ∧ delayTarget rate tempo t ≤ 67108352 := by
  unfold delayTarget
  split
  · exact ht.fixed
  · refine ⟨le_min (le_roundDiv (by omega) ?_) (by decide), min_le_right _ _⟩
    have hticks := ht.ticks.1
    cases rate <;> simp only [SampleRate.hz] <;> omega

/-- A glide step stays between the value and the target (R59). -/
theorem moveNat_mem {lo hi step cur target : Nat} (hc : lo ≤ cur ∧ cur ≤ hi) (ht : lo ≤ target ∧ target ≤ hi) :
    lo ≤ moveNat step cur target ∧ moveNat step cur target ≤ hi := by
  unfold moveNat
  split_ifs <;> omega

theorem glideStep_mem {lo hi glide value target : Nat} (hv : lo ≤ value ∧ value ≤ hi) (ht : lo ≤ target ∧ target ≤ hi) :
    lo ≤ glideStep glide value target ∧ glideStep glide value target ≤ hi := by
  unfold glideStep
  split
  · exact ht
  · exact moveNat_mem hv ht

theorem moveInt_mem {lo hi cur target : Int} (step : Int) (hstep : 0 ≤ step) (hc : lo ≤ cur ∧ cur ≤ hi)
    (ht : lo ≤ target ∧ target ≤ hi) : lo ≤ moveInt step cur target ∧ moveInt step cur target ≤ hi := by
  unfold moveInt
  split_ifs <;> omega

/-- The increment of an LFO lies between those of 10 mHz at 96 kHz and of 20 Hz at 48 kHz (R62). -/
theorem lfoIncrement_mem (rate : SampleRate) {v : Nat} (hv : 10 ≤ v ∧ v ≤ 20000) :
    1 ≤ lfoIncrement rate v ∧ lfoIncrement rate v ≤ 1789570 := by
  obtain ⟨hlo, hhi⟩ := hv
  cases rate
  · exact ⟨le_roundDiv (by decide) (by simp only [SampleRate.hz]; omega), roundDiv_le (by decide) (by simp only [SampleRate.hz]; omega)⟩
  · exact ⟨le_roundDiv (by decide) (by simp only [SampleRate.hz]; omega), roundDiv_le (by decide) (by simp only [SampleRate.hz]; omega)⟩

/-! ### Reads -/

theorem sampleOk_toInt (x : BitVec 24) : sampleOk x.toInt := by
  have hlo := BitVec.le_toInt x
  have hhi := BitVec.toInt_lt (x := x)
  exact ⟨by simpa using hlo, by simp at hhi; omega⟩

/-- A checked word that gives a sample gives one in range (R150). -/
theorem sampleOk_checkWord {w : DramWord} {v : Int} (h : (checkWord w).sample = some v) : sampleOk v := by
  unfold checkWord at h
  dsimp only at h
  split at h
  · exact Option.some.inj h ▸ sampleOk_toInt _
  · split at h
    · exact Option.some.inj h ▸ sampleOk_toInt _
    · split at h
      · exact Option.some.inj h ▸ sampleOk_toInt _
      · cases h

theorem sampleOk_sourceSample {l : LineRun} {k : Nat} {s : State} {v : Int} (h : (sourceSample l k s).1.sample = some v) : sampleOk v := by
  unfold sourceSample at h
  split at h
  · exact Option.some.inj h ▸ sampleOk_zero
  · dsimp only at h
    split at h
    · exact Option.some.inj h ▸ sampleOk_toInt _
    · exact sampleOk_checkWord h

theorem sampleOk_tapRead {l : LineRun} {d : Nat} {s : State} {v : Int} (h : tapRead l d s = some v) : sampleOk v := by
  unfold tapRead at h
  split at h
  · next h0 h1 =>
    exact Option.some.inj h ▸ sampleOk_interpolate (sampleOk_sourceSample h0) (sampleOk_sourceSample h1) (by omega)
  · cases h

/-! ### One tap and one instance in one frame -/

/-- A tap within its limits keeps its running fields in range (R30). -/
theorem TapRun.wf.tapFrame {c : FrameCtx} {t : TapProg} {u : TapRun} {n : Nat} (hu : u.wf) (ht : t.wf n)
    (htempo : 3000 ≤ c.tempo ∧ c.tempo ≤ 30000) (s : State) : (tapFrame c t u s).run.wf := by
  have htarget := delayTarget_mem c.rate htempo ht
  have hread : sampleOk ((tapRead (c.lineOf t) (frameDelay c t u) s).getD u.heldRead) := by
    cases h : tapRead (c.lineOf t) (frameDelay c t u) s with
    | none => exact hu.heldRead
    | some v => exact sampleOk_tapRead h
  have hgain : -32768 ≤ tapGainTarget c.state t ∧ tapGainTarget c.state t ≤ 32767 := by
    unfold tapGainTarget
    split
    · decide
    · exact ht.gain
  have hdamp : tapDamp c.state t ≤ 32767 := by
    unfold tapDamp
    split
    · decide
    · exact ht.damp
  exact ⟨htarget, glideStep_mem hu.glide htarget, moveInt_mem 512 (by decide) hu.gain hgain, hread, sampleOk_dampStep hdamp hread hu.damping⟩

theorem tapsFrame_wf {c : FrameCtx} {n : Nat} (htempo : 3000 ≤ c.tempo ∧ c.tempo ≤ 30000) :
    ∀ (ts : List TapProg) (us : List TapRun) (s : State), (∀ t ∈ ts, t.wf n) → (∀ u ∈ us, u.wf) →
      ∀ o ∈ (tapsFrame c ts us s).1, o.run.wf
  | [], _, _, _, _ => by simp [tapsFrame]
  | _ :: _, [], _, _, _ => by simp [tapsFrame]
  | t :: ts, u :: us, s, hts, hus => by
    intro o ho
    simp only [tapsFrame, List.mem_cons] at ho
    obtain rfl | ho := ho
    · exact (hus u List.mem_cons_self).tapFrame (hts t List.mem_cons_self) htempo s
    · exact tapsFrame_wf htempo ts us _ (fun t h => hts t (List.mem_cons_of_mem _ h)) (fun u h => hus u (List.mem_cons_of_mem _ h)) o ho

/-- A line of at least one page advances within its pages; one of none stays at 0 (R28). -/
theorem LineRun.wf.advance {l : LineRun} (_ : l.wf) : l.advance.wf :=
  ⟨Nat.min_le_right _ _, fun h => Nat.mod_lt _ h⟩

theorem natAbs_sat24_le (x : Int) : (sat24 x).natAbs ≤ 8388608 := by
  obtain ⟨hlo, hhi⟩ := sampleOk_sat24 x
  omega

/-- The running fields after a frame, but for the window's progress (R27, R30, R33, R61, R110). -/
theorem Running.wf.afterFrame {r : Running} (hr : r.wf) {p : Program} (hp : p.wf) (rate : SampleRate) (i : InstNo) (x : Inst) {s : State}
    (htempo : 3000 ≤ s.tempo.tempo ∧ s.tempo.tempo ≤ 30000) {n m : Nat} (hn : n ≤ 255) (hm : m ≤ 8388608) :
    { Running.afterFrame rate i x p r s with windowProgress := n, windowPeak := m }.wf where
  lines l hl := by
    obtain ⟨k, hk, rfl⟩ := List.mem_map.1 hl
    exact (hr.lines k hk).advance
  taps u hu := by
    obtain ⟨o, ho, rfl⟩ := List.mem_map.1 hu
    exact tapsFrame_wf htempo p.taps r.taps s hp.taps hr.taps o ho
  phases := ⟨Nat.mod_lt _ (by decide), Nat.mod_lt _ (by decide)⟩
  incs := hr.incs
  gains := by
    have hin : inTarget x.state p ≤ 32767 := by
      cases x.state with
      | running => exact hp.inGain
      | _ => exact Nat.zero_le _
    have hout : outTarget x.state p ≤ 32767 := by
      cases x.state with
      | cutting => exact Nat.zero_le _
      | _ => exact hp.outGain
    exact ⟨(moveNat_mem ⟨Nat.zero_le _, hr.gains.1⟩ ⟨Nat.zero_le _, hin⟩).2,
      (moveNat_mem ⟨Nat.zero_le _, hr.gains.2⟩ ⟨Nat.zero_le _, hout⟩).2⟩
  progress := hn
  peak := hm

/-- The peak of the window after a frame (R110). -/
theorem Running.wf.afterFrame_peak {r : Running} (hr : r.wf) (rate : SampleRate) (i : InstNo) (x : Inst) (p : Program) (s : State) :
    (Running.afterFrame rate i x p r s).windowPeak ≤ 8388608 :=
  max_le hr.peak (max_le (natAbs_sat24_le _) (natAbs_sat24_le _))

/-! ### Windows (R110, R112) -/

/-- A window that is not complete is not ended. -/
theorem Inst.closeWindow_of_lt {x : Inst} (h : ∀ r, x.running = some r → r.windowProgress < 256) : x.closeWindow = x := by
  unfold Inst.closeWindow
  split
  · next r hr => exact if_neg (Nat.not_le.2 (h r hr))
  · rfl

theorem Inst.closeWindow_of_complete {x : Inst} {r : Running} (hr : x.running = some r) (h : 256 ≤ r.windowProgress) :
    x.closeWindow = x.windowEnd := by
  unfold Inst.closeWindow
  rw [hr]
  exact if_pos h

/-- The running fields after the window is looked at: the window restarts where it was complete (R110). -/
theorem Inst.closeWindow_running {x : Inst} {r : Running} (hr : x.running = some r) :
    x.closeWindow.running = some (if 256 ≤ r.windowProgress then { r with windowProgress := 0, windowPeak := 0 } else r) := by
  by_cases h : 256 ≤ r.windowProgress
  · rw [Inst.closeWindow_of_complete hr h, if_pos h]
    obtain ⟨p, -, -, hend⟩ | ⟨hend, -⟩ := Inst.windowEnd_cases hr
    · rw [hend]; rfl
    · rw [hend]; rfl
  · rw [Inst.closeWindow_of_lt fun q hq => by rw [hr] at hq; cases hq; omega, if_neg h, hr]

/-- A window end that makes no decision leaves both counts below their limits (R112). -/
theorem spillDecision_of_none {p : Program} {level : Nat} {x : Inst} (h : (spillDecision p level x).decision = none) :
    (spillDecision p level x).quietCount < p.quiet ∧ (spillDecision p level x).spillWindows < p.spillLimit := by
  unfold spillDecision at h ⊢
  dsimp only at h ⊢
  split at h
  · cases h
  · split at h
    · cases h
    · omega

/-- The counts of a spill after the window is looked at (R112). -/
theorem Inst.closeWindow_counts {x : Inst} {r : Running} (hr : x.running = some r) :
    (x.closeWindow.quietCount = x.quietCount ∧ x.closeWindow.spillWindows = x.spillWindows ∧ x.closeWindow.decision = x.decision) ∨
      256 ≤ r.windowProgress ∧ x.state = .spilling ∧ ∃ p, x.program = some p ∧
        x.closeWindow.quietCount ≤ x.quietCount + 1 ∧ x.closeWindow.spillWindows = x.spillWindows + 1 ∧
        (x.closeWindow.decision = none → x.closeWindow.quietCount < p.quiet ∧ x.closeWindow.spillWindows < p.spillLimit) := by
  by_cases h : 256 ≤ r.windowProgress
  · rw [Inst.closeWindow_of_complete hr h]
    obtain ⟨p, hstate, hp, hend⟩ | ⟨hend, -⟩ := Inst.windowEnd_cases hr
    · refine .inr ⟨h, hstate, p, hp, ?_⟩
      rw [hend]
      refine ⟨?_, rfl, fun hnone => ?_⟩
      · simp only [spillDecision, Inst.leveled, quietAfter]
        split_ifs <;> omega
      · exact spillDecision_of_none hnone
    · rw [hend]
      exact .inl ⟨rfl, rfl, rfl⟩
  · rw [Inst.closeWindow_of_lt fun q hq => by rw [hr] at hq; cases hq; omega]
    exact .inl ⟨rfl, rfl, rfl⟩

/-! ### Moves -/

section
variable {c : Instr} {s t : State}

/-- The running fields that an admission sets are in range (R30, R33, R61). -/
theorem runningStart_wf (rate : SampleRate) {tempo : Nat} (htempo : 3000 ≤ tempo ∧ tempo ≤ 30000) {p : Program} (hp : p.wf)
    {lines : List LineRun} (hlines : ∀ l ∈ lines, l.w = 0 ∧ l.f = 0) (cost : Nat) : (runningStart rate tempo p lines cost).wf where
  lines l hl := by
    obtain ⟨hw, hf⟩ := hlines l hl
    exact ⟨by rw [hf]; exact Nat.zero_le _, fun h => by rwa [hw]⟩
  taps u hu := by
    obtain ⟨k, hk, rfl⟩ := List.mem_map.1 hu
    have htarget := delayTarget_mem rate htempo (hp.taps k hk)
    exact ⟨htarget, htarget, (hp.taps k hk).gain, sampleOk_zero, sampleOk_zero⟩
  phases := by
    have h0 := hp.lfo0.2.2
    have h1 := hp.lfo1.2.2
    simp only [runningStart, lfoStart]
    omega
  incs := by
    have h0 := lfoIncrement_mem rate ⟨hp.lfo0.1, hp.lfo0.2.1⟩
    have h1 := lfoIncrement_mem rate ⟨hp.lfo1.1, hp.lfo1.2.1⟩
    exact ⟨h0.1, h0.2, h1.1, h1.2⟩
  gains := ⟨Nat.zero_le _, hp.outGain⟩
  progress := Nat.zero_le _
  peak := Nat.zero_le _

/-- A SET leaves the running fields in range (R62, R89). -/
theorem Running.wf.store {r : Running} (hr : r.wf) (rate : SampleRate) (d : Ident) (k : Nat) (v : Int) :
    (Running.store rate d k (d.clamp v) r).wf := by
  cases d with
  | lfoRate =>
    have hv := Ident.clamp_mem .lfoRate v
    simp only [Ident.range] at hv
    have hinc := lfoIncrement_mem rate (v := (Ident.lfoRate.clamp v).toNat) (by omega)
    simp only [Running.store]
    split
    · exact { hr with phases := hr.phases, incs := ⟨hinc.1, hinc.2, hr.incs.2.2⟩ }
    · exact { hr with phases := hr.phases, incs := ⟨hr.incs.1, hr.incs.2.1, hinc⟩ }
  | _ => exact hr

theorem RunningInv.mono (hs : RunningInv s) (hp : ProgramsInv t) (htempo : t.tempo = s.tempo)
    (hrunning : ∀ i r, (t.inst i).running = some r → (s.inst i).running = some r ∨ r.wf) : RunningInv t :=
  ⟨hp, htempo ▸ hs.tempo, fun i r hr => (hrunning i r hr).elim (hs.running i r) id⟩

/-- The running fields of one instance change. -/
theorem RunningInv.update (hs : RunningInv s) (hp : ProgramsInv t) (htempo : t.tempo = s.tempo) {i : InstNo} {x : Inst}
    (hinst : ∀ j, t.inst j = if j = i then x else s.inst j) (hx : ∀ r, x.running = some r → (s.inst i).running = some r ∨ r.wf) :
    RunningInv t := by
  refine hs.mono hp htempo fun j r hr => ?_
  rw [hinst] at hr
  split at hr
  · next he => exact he ▸ hx r hr
  · exact .inl hr

/-- An admission, or nothing where the part is not in RUN or the instance has no program. -/
theorem State.admission_cases (i : InstNo) (s : State) :
    s.admission i = s ∨ ∃ r p, s.run = some r ∧ (s.inst i).program = some p ∧
      s.admission i = State.modInst i
        (Inst.admitted r.rate s.tempo.tempo p
          (grantLines i 0 ((fitTest p s.freeCounts).1.zip (p.lines.map LineProg.length)) r).1 (fitTest p s.freeCounts).2.budget)
        { s with run := some { (grantLines i 0 ((fitTest p s.freeCounts).1.zip (p.lines.map LineProg.length)) r).2 with
          budgetInUse := (grantLines i 0 ((fitTest p s.freeCounts).1.zip (p.lines.map LineProg.length)) r).2.budgetInUse +
            (fitTest p s.freeCounts).2.budget } } := by
  cases hr : s.run with
  | none => exact .inl (by simp [State.admission, hr])
  | some r =>
    cases hp : (s.inst i).program with
    | none => exact .inl (by simp [State.admission, hr, hp])
    | some p => exact .inr ⟨r, p, rfl, rfl, State.admission_eq hr hp⟩

theorem State.EngineMove.runningInv (h : s.EngineMove t) (hs : RunningInv s) (hp : ProgramsInv t) : RunningInv t := by
  cases h with
  | load i | unload i | release i =>
    refine hs.update hp rfl (State.modInst_inst i · _ _) fun r hr => ?_
    first
    | exact .inl hr
    | cases hr
  | admission i hstate hfits =>
    obtain heq | ⟨r, p, hr, hpr, heq⟩ := State.admission_cases i { s with queue := s.queue.erase i }
    · rw [heq] at hp ⊢
      exact ⟨hp, hs.tempo, hs.running⟩
    · rw [heq] at hp ⊢
      refine hs.update (s := s) hp rfl (State.modInst_inst i · _ _) fun y hy => ?_
      obtain rfl := Option.some.inj hy
      refine .inr (runningStart_wf r.rate hs.tempo (hs.programs.instances i p hpr) (fun l hl => ?_) _)
      have hmem := List.mem_map_of_mem (f := fun l : LineRun => (l.w, l.f, l.pool)) hl
      rw [grantLines_start] at hmem
      obtain ⟨x, -, hx⟩ := List.mem_map.1 hmem
      simp only [Prod.mk.injEq] at hx
      exact ⟨hx.1.symm, hx.2.1.symm⟩
  | spill i =>
    refine hs.update hp rfl (State.modInst_inst i · _ _) fun r hr => ?_
    obtain ⟨q, hq, rfl⟩ := Option.map_eq_some_iff.1 hr
    have hwf := hs.running i q hq
    exact .inr { hwf with progress := Nat.zero_le _, peak := Nat.zero_le _ }
  | set i d k v =>
    refine hs.update hp rfl (State.modInst_inst i · _ _) fun r hr => ?_
    obtain ⟨q, hq, rfl⟩ := Option.map_eq_some_iff.1 hr
    exact .inr ((hs.running i q hq).store _ d k v)
  | enqueue i | leaveQueue i | cut i | resume i | hold i | unhold i | voidDecision i | voidRelease i =>
    exact hs.update hp rfl (State.modInst_inst i · _ _) fun r hr => .inl hr

theorem Move.runningInv (h : Move c s t) (hs : RunningInv s) : RunningInv t := by
  have hp := h.programsInv hs.programs
  cases h with
  | quiet h =>
    cases h with
    | plain h =>
      have hinst := State.inst_congr h.instances
      refine hs.mono hp h.same.2.2.2.2.1 fun i r hr => .inl ?_
      rwa [hinst] at hr
    | engine h => exact h.runningInv hs hp
    | tempo h => exact ⟨hp, h.tempo hs.tempo, hs.running⟩
    | cue => exact ⟨hp, hs.tempo, hs.running⟩
  | library => exact ⟨hp, hs.tempo, hs.running⟩
  | advance i r p y u _ hprogram hrunning _ htempo =>
    refine hs.update hp rfl (State.setInst_inst i · _ s) fun z hz => .inr ?_
    have hy := hs.running i y hrunning
    have hpeak := hy.afterFrame_peak r.rate i (s.inst i) p u
    have hprogress : (Running.afterFrame r.rate i (s.inst i) p y u).windowProgress = y.windowProgress + 1 := rfl
    have hle := hy.progress
    obtain ⟨clip, due, hframe⟩ := instFrame_inst r.rate i (s.inst i) p y u
    rw [hframe, Inst.closeWindow_running rfl] at hz
    obtain rfl := Option.some.inj hz
    have hwf {n m : Nat} (hn : n ≤ 255) (hm : m ≤ 8388608) :=
      hy.afterFrame (hs.programs.instances i p hprogram) r.rate i (s.inst i) (s := u) (htempo ▸ hs.tempo) hn hm
    split
    · exact hwf (Nat.zero_le _) (Nat.zero_le _)
    · next h => exact hwf (m := (Running.afterFrame r.rate i (s.inst i) p y u).windowPeak) (by omega) hpeak
  | closeWindow i =>
    refine hs.update hp rfl (State.setInst_inst i · _ s) fun z hz => .inl ?_
    rwa [Inst.closeWindow_of_lt fun r hr => Nat.lt_succ_of_le (hs.running i r hr).progress] at hz
  | enterRun => exact ⟨hp, hs.tempo, hs.running⟩
  | softEngine r =>
    refine ⟨hp, hs.tempo, fun i r hr => ?_⟩
    rw [softEngine_inst] at hr
    cases hr
  | assertReset | powerUp =>
    refine ⟨hp, (by decide : 3000 ≤ State.reset.tempo.tempo ∧ State.reset.tempo.tempo ≤ 30000), fun i r hr => ?_⟩
    cases (congrArg Inst.running (reset_inst i)).symm.trans hr

/-! ### The tail monitor's counts (R109, R112) -/

/-- The counts of one instance within their bounds. -/
def Inst.tailWf (x : Inst) : Prop :=
  x.quietCount ≤ 15 ∧ x.spillWindows ≤ 65535 ∧
    (x.state = .spilling → x.decision = none → x.quietCount ≤ 14 ∧ x.spillWindows ≤ 65534)

theorem TailInv.update (hs : TailInv s) {i : InstNo} {x : Inst} (hinst : ∀ j, t.inst j = if j = i then x else s.inst j)
    (hx : x.tailWf) : TailInv t := by
  intro j
  rw [hinst]
  split
  · exact hx
  · exact hs j

/-- Counts that start again at 0, or that stand in another state than SPILLING. -/
theorem Inst.tailWf_of_zero {x : Inst} (hq : x.quietCount = 0) (hw : x.spillWindows = 0) : x.tailWf := by
  unfold Inst.tailWf
  omega

theorem Inst.tailWf.not_spilling {x y : Inst} (hy : y.tailWf) (hq : x.quietCount = y.quietCount) (hw : x.spillWindows = y.spillWindows)
    (hstate : x.state ≠ .spilling) : x.tailWf :=
  ⟨hq ▸ hy.1, hw ▸ hy.2.1, fun h => absurd h hstate⟩

theorem State.EngineMove.tailInv (h : s.EngineMove t) (hs : TailInv s) : TailInv t := by
  cases h with
  | load i | enqueue i | leaveQueue i | cut i | hold i | unhold i | release i =>
    exact hs.update (State.modInst_inst i · _ _) (Inst.tailWf.not_spilling (hs i) rfl rfl InstState.noConfusion)
  | unload i | spill i | resume i => exact hs.update (State.modInst_inst i · _ _) (Inst.tailWf_of_zero rfl rfl)
  | admission i =>
    unfold State.admission
    split
    · exact hs.update (s := s) (State.modInst_inst i · _ _) (Inst.tailWf_of_zero rfl rfl)
    · exact hs
  | set i | voidRelease i => exact hs.update (State.modInst_inst i · _ _) (hs i)
  | voidDecision i hstate => exact hs.update (State.modInst_inst i · _ _) (Inst.tailWf.not_spilling (hs i) rfl rfl hstate)

/-- A frame of an instance keeps its counts: the window it completes finds no decision standing (log 8). -/
theorem Inst.tailWf.afterFrame {x : Inst} (hx : x.tailWf) {y : Running} {p : Program} (hp : x.program = some p) (hwf : p.wf)
    (hdecision : 255 ≤ y.windowProgress → x.decision = none) (rate : SampleRate) (i : InstNo) (s : State) :
    (instFrame rate i x p y s).inst.tailWf := by
  obtain ⟨clip, due, hframe⟩ := instFrame_inst rate i x p y s
  have hstate := (instFrame_inst_keeps rate i x p y s).1
  unfold Inst.tailWf
  rw [hstate, hframe]
  obtain ⟨hq, hw, hspill⟩ := hx
  obtain ⟨hq', hw', hd'⟩ | ⟨hprogress, hspilling, q, hprog, hq', hw', hd'⟩ := Inst.closeWindow_counts
    (x := { x with running := some (Running.afterFrame rate i x p y s), clip := clip, releaseDue := due }) rfl
  · rw [hq', hw', hd']
    exact ⟨hq, hw, hspill⟩
  · obtain rfl : p = q := Option.some.inj (hp.symm.trans hprog)
    have hnone := hdecision (Nat.le_of_succ_le_succ hprogress)
    have hbefore := hspill hspilling hnone
    have hquiet := hwf.quiet
    have hlimit := hwf.spillLimit
    dsimp only at hq' hw'
    refine ⟨by omega, by omega, fun _ hd => ?_⟩
    have hafter := hd' hd
    omega

theorem Move.tailInv (h : Move c s t) (hr : RunningInv s) (hs : TailInv s) : TailInv t := by
  cases h with
  | quiet h =>
    cases h with
    | plain h =>
      intro i
      rw [State.inst_congr h.instances]
      exact hs i
    | engine h => exact h.tailInv hs
    | tempo => exact hs
    | cue => exact hs
  | library => exact hs
  | advance i r p y u _ hprogram _ _ _ hdecision =>
    exact hs.update (State.setInst_inst i · _ s)
      (Inst.tailWf.afterFrame (hs i) hprogram (hr.programs.instances i p hprogram) hdecision r.rate i u)
  | closeWindow i =>
    refine hs.update (State.setInst_inst i · _ s) ?_
    rw [Inst.closeWindow_of_lt fun r h => Nat.lt_succ_of_le (hr.running i r h).progress]
    exact hs i
  | enterRun => exact hs
  | softEngine r =>
    intro i
    rw [softEngine_inst]
    exact Inst.tailWf_of_zero rfl rfl
  | assertReset | powerUp =>
    intro i
    exact (reset_inst i) ▸ Inst.tailWf_of_zero (x := State.reset.inst i) (by rw [reset_inst]; rfl) (by rw [reset_inst]; rfl)

end

/-- Settles O59: each move keeps the running fields in range and, with them, the counts; a step is a chain of moves. -/
theorem runningInvariantKept : Obligations.RunningInvariantKept := by
  intro s t hs h
  have hpending (s : State) (l : List Instr) (h : RunningInv s) : RunningInv { s with pending := l } :=
    ⟨⟨h.programs.library, h.programs.instances⟩, h.tempo, h.running⟩
  refine ⟨step_keeps hpending Move.runningInv h hs, fun htail => ?_⟩
  exact (step_keeps (P := fun s => RunningInv s ∧ TailInv s) (fun s l h => ⟨hpending s l h.1, h.2⟩)
    (fun hmove h => ⟨hmove.runningInv h.1, hmove.tailInv h.1 h.2⟩) h ⟨hs, htail⟩).2

end Sys2Proof.Machine
end

section
/-! The state after power-up meets every invariant: obligation O60. -/

namespace Sys2Proof.Machine

theorem reset_running (i : InstNo) : (State.reset.inst i).running = none := by rw [reset_inst]; rfl

theorem programsInv_reset : ProgramsInv State.reset :=
  ⟨fun k r h => (by rw [reset_libSlot_record] at h; cases h), fun i p h => (by rw [reset_inst] at h; cases h)⟩

theorem instancesInv_reset : InstancesInv State.reset := instancesInv_empty reset_inst rfl rfl rfl

theorem poolInv_reset : PoolInv State.reset where
  instances := instancesInv_reset
  programs := programsInv_reset
  pools r p h := by cases h
  lengths i p r _ hr := by rw [reset_running] at hr; cases hr
  corrections r h := by cases h
  setup _ := ⟨rfl, rfl, rfl⟩

/-- Settles O60: every list is empty, every instance EMPTY, every count 0, and the tempo 12000. -/
theorem invariantsHoldAtReset : Obligations.InvariantsHoldAtReset := by
  refine ⟨?_, cueInv_reset rfl, tempoInv_reset rfl rfl, rfl, ?_, ?_, portsInv_reset rfl, noticesInv_reset rfl, ?_, programsInv_reset, instancesInv_reset, ?_,
    poolInv_reset, ?_, ?_⟩
  · exact ⟨by decide, by decide, by decide, rfl, rfl, trivial⟩
  · exact ⟨by decide, List.nodup_nil, by decide, by decide, by decide⟩
  · exact (by decide : (0 : Nat) ≤ 15 ∧ (0 : Nat) ≤ 4)
  · exact fun k r h => by rw [reset_libSlot_record] at h; cases h
  · exact ⟨instancesInv_reset, fun r h => by (cases h), fun r h => by cases h⟩
  · exact ⟨programsInv_reset, by decide, fun i r h => by rw [reset_running] at h; cases h⟩
  · exact fun i => Inst.tailWf_of_zero (x := State.reset.inst i) (by rw [reset_inst]; rfl) (by rw [reset_inst]; rfl)

end Sys2Proof.Machine
end

section
/-! Steps, resets, pins and the control link byte by byte: obligations O1 to O7 (R169, R181 to R188, R201). -/

namespace Sys2Proof.Machine

/-- Settles O1: by the definition of a step, at an empty and at a non-empty queue. -/
theorem stepRunsFrontCommand : Obligations.StepRunsFrontCommand :=
  ⟨fun s c rest h => by rw [step, h], fun s h => by rw [step, h]⟩

/-- Settles O2: each field of the reset state, each instance and slot being a copy of one empty context. -/
theorem resetLeavesSpecValues : Obligations.ResetLeavesSpecValues := by
  refine ⟨⟨rfl, rfl, rfl⟩, fun i => ?_, fun k => ?_, ⟨rfl, rfl, rfl, rfl⟩, ⟨rfl, rfl, rfl, rfl⟩, ⟨rfl, rfl, rfl, rfl, rfl, rfl, rfl⟩,
    fun k => ?_, ⟨rfl, rfl, rfl, rfl⟩, ⟨rfl, rfl, rfl, rfl, rfl⟩, fun g => ?_, rfl⟩
  · rw [reset_inst]
    exact ⟨rfl, rfl, rfl, rfl, rfl, rfl, rfl, rfl, rfl, rfl⟩
  · simp [State.libSlot, State.reset]
  · simp [State.reset, Ports.reset]
  · cases g <;> exact ⟨rfl, rfl⟩

/-- Settles O3: the whole next state of each row. -/
theorem powerUpAndResetPin : Obligations.PowerUpAndResetPin := fun s =>
  ⟨rfl, rfl, fun h => congrArg Host.Outcome.next (if_pos h), fun h => congrArg Host.Outcome.next (if_neg (by simp [h]))⟩

/-! ### While RESET is asserted (R181, R201) -/

section
variable {s : State}

/-- No request is taken. -/
theorem exec_request_of_reset {c : Instr} {k : Kind} (h : requestKind c = some k) (hreset : s.resetPin = true) : exec c s = .next s := by
  obtain ⟨mine, owner, row⟩ := exists_requestRow h
  exact row.exec_eq_self fun f rest htake => absurd htake.released (by simp [hreset])

/-- Settles O4: each row tests the pin first; a request row takes nothing. -/
theorem nothingEntersWhileResetAsserted : Obligations.NothingEntersWhileResetAsserted := by
  intro c s hreset hc
  obtain hrow | rfl | rfl | rfl | rfl | rfl | rfl | rfl | ⟨b, hb⟩ | ⟨d, lanes, e, rfl⟩ | ⟨e, rfl | rfl⟩ := hc
  · obtain ⟨k, hk⟩ := Option.isSome_iff_exists.1 hrow
    exact exec_request_of_reset hk hreset
  · rw [exec_unknownKind, State.serveUnknown_eq_self fun f rest htake => absurd htake.released (by simp [hreset])]
  · refine congrArg Host.Outcome.next ?_
    unfold State.frameBegins
    split <;> simp [hreset]
  · refine congrArg Host.Outcome.next ?_
    unfold State.deselect
    split <;> simp [hreset]
  · refine congrArg Host.Outcome.next ?_
    unfold State.replyByteSent
    split <;> simp [hreset]
  · refine congrArg Host.Outcome.next ?_
    unfold State.replySent
    split <;> simp [hreset]
  · refine congrArg Host.Outcome.next ?_
    unfold State.goPin
    simp [hreset]
  · change execTapEdge s = .next s
    unfold execTapEdge
    split <;> simp [hreset]
  · obtain rfl | rfl | rfl | rfl | rfl := hb
    · refine congrArg Host.Outcome.next ?_
      unfold State.strayByte
      split <;> simp [hreset]
    · refine congrArg Host.Outcome.next ?_
      unfold State.lenAccepted
      split <;> simp [hreset]
    · refine congrArg Host.Outcome.next ?_
      unfold State.lenRejected
      split <;> simp [hreset]
    · refine congrArg Host.Outcome.next ?_
      simp [State.byteKept, hreset]
    · refine congrArg Host.Outcome.next ?_
      unfold State.frameComplete
      split <;> simp [hreset]
  · exact if_pos hreset
  · exact if_pos hreset
  · exact if_pos hreset

/-! ### Pins and lanes (R169, R185, R187, R188) -/

/-- A bit of a lane frame is a bit of its slot. -/
theorem getMsbD_laneSlot (x : LaneFrame) {m j : Nat} (hm : m < 16) (hj : j < 32) :
    x.getMsbD (32 * m + j) = (laneSlot x m).getMsbD j := by
  have hpos : 512 - 1 - (32 * m + j) = 480 - 32 * m + (32 - 1 - j) := by omega
  rw [BitVec.getMsbD_eq_getLsbD, BitVec.getMsbD_eq_getLsbD, laneSlot, BitVec.getLsbD_extractLsb', hpos]
  simp [hj, show 32 * m + j < 512 by omega, show 31 - j < 32 by omega]

/-- A slot sends its sample in the top 24 bits, most significant bit first, and 8 bits of zero. -/
theorem getMsbD_slotWord (v : Int) {j : Nat} (hj : j < 32) :
    (slotWord v).getMsbD j = (decide (j < 24) && (BitVec.ofInt 24 v).getMsbD j) := by
  rw [BitVec.getMsbD_eq_getLsbD, BitVec.getMsbD_eq_getLsbD, slotWord, BitVec.getLsbD_append]
  by_cases h : j < 24
  · simp [hj, h, show ¬ 31 - j < 8 by omega, show 31 - j - 8 = 23 - j by omega]
  · simp [h, show 31 - j < 8 by omega]

/-- A bit of an output lane is a bit of the transmit value of its slot. -/
theorem getMsbD_outLane (first : Nat) (v : Vector Int 32) {m j : Nat} (hm : m < 16) (hj : j < 32) :
    (outLane first v).getMsbD (32 * m + j) = (decide (j < 24) && (BitVec.ofInt 24 (v.toList.getD (first + m) 0)).getMsbD j) := by
  rw [getMsbD_laneSlot _ hm hj, laneSlot_outLane first v hm, getMsbD_slotWord _ hj]

theorem toList_getD_port (v : Vector Int 32) (k : PortNo) : v.toList.getD k.val 0 = v[k.val] := by
  simp [List.getD_eq_getElem?_getD]

theorem holdsAtn_iff (n : Notices) :
    n.holdsAtn = true ↔ ∃ g, (n.config g).enabled = true ∧ 1 ≤ (n.config g).priority ∧ n.pending g = true := by
  unfold Notices.holdsAtn
  rw [List.any_eq_true]
  constructor
  · rintro ⟨g, -, hg⟩
    simp only [Bool.and_eq_true, decide_eq_true_eq] at hg
    exact ⟨g, hg.1.1, hg.1.2, hg.2⟩
  · rintro ⟨g, henabled, hpriority, hpending⟩
    exact ⟨g, by cases g <;> decide, by simp [henabled, hpriority, hpending]⟩

end

/-- Settles O5: the pins by their definitions, the lanes slot by slot. -/
theorem pinsFollowTheState : Obligations.PinsFollowTheState := by
  intro s
  refine ⟨fun h => ⟨?_, ?_⟩, fun h => ⟨?_, ?_⟩, fun h => ?_, fun h => ?_, fun h => ?_, fun r rest h => ?_, fun k j hj => ?_⟩
  · simp [State.rdy, h, inboxPlaces]
  · simp [State.atnActive, h, holdsAtn_iff]
  · simp [State.rdy, h]
  · simp [State.atnActive, h]
  · simp [State.atnLevel, h]
  · simp [State.atnLevel, h]
  · simp [State.nextLdo, h]
  · simp [State.nextLdo, h]
  · have hm : k.val % 16 < 16 := Nat.mod_lt _ (by decide)
    split
    · next hk =>
      rw [State.aout0, getMsbD_outLane _ _ hm hj, Nat.zero_add, Nat.mod_eq_of_lt hk, toList_getD_port]
    · next hk =>
      have hsum : 16 + k.val % 16 = k.val := by omega
      rw [State.aout1, getMsbD_outLane _ _ hm hj, hsum, toList_getD_port]

/-! ### The receiver (R183 to R185) -/

theorem lenOk_iff (n : Nat) : lenOk n = true ↔ 2 ≤ n ∧ n ≤ 1024 := by simp [lenOk]

/-- Settles O6: each row in the receiver state that it is due in. -/
theorem receiverTakesEachByte : Obligations.ReceiverTakesEachByte := by
  intro s b hreset
  refine ⟨fun h => ⟨?_, fun h0 hsync => ?_, fun h0 => ?_⟩, fun h => ?_, fun a h => ⟨fun hlo hhi => ?_, fun hbad => ?_⟩,
    fun n kept h hn => ?_, fun kept tag kind body h hbytes => ⟨fun hroom => ?_, fun hfull => ?_⟩, fun h => ?_, fun h => ?_⟩
  all_goals refine congrArg Host.Outcome.next ?_
  · simp [State.frameBegins, h, hreset]
  · simp only [State.strayByte, h, hreset]
    exact if_neg (by simpa using ⟨h0, hsync⟩)
  · simp [State.strayByte, h, h0]
  · simp [State.byteKept, h, hreset]
  · simp [State.lenAccepted, h, hreset, (lenOk_iff _).2 ⟨hlo, hhi⟩, lenOf]
  · have hlen : lenOk (lenOf a b) = false := by
      rw [Bool.eq_false_iff, ne_eq, lenOk_iff, lenOf]
      omega
    simp [State.lenRejected, h, hreset, hlen]
  · simp [State.byteKept, h, hreset, hn]
  · simp [State.frameComplete, h, hreset, State.toInbox, hbytes, frameOf, byteAt, hroom, inboxPlaces, State.setReceiver]
  · simp [State.frameComplete, h, hreset, State.toInbox, hbytes, frameOf, byteAt, Nat.not_lt.2 hfull, inboxPlaces]
  · simp [State.deselect, h]
  · unfold State.deselect
    split
    · next hh => exact absurd hh h
    · simp [hreset]
    · simp [hreset]

/-! ### Sending (R187) -/

/-- Settles O7: the bytes of a reply by its definition, and the head reply's next byte. -/
theorem repliesAreSentByteByByte : Obligations.RepliesAreSentByteByByte := by
  refine ⟨fun s r rest hreset horder => ⟨fun hmore => ?_, fun hlast => ?_⟩, fun r => ?_, rfl⟩
  · refine congrArg Host.Outcome.next ?_
    simp [State.replyByteSent, horder, hreset, hmore]
  · refine congrArg Host.Outcome.next ?_
    simp [State.replySent, horder, hreset, hlast]
  · simp [Reply.bytes, u2, u1, beBytes]

end Sys2Proof.Machine
end

section
/-! The table of identifiers and the stored values (R62, R87 to R89, R91): obligation O24. -/

namespace Sys2Proof.Machine

/-! ### The table of R87 -/

/-- The identifiers in the order of their codes. -/
def Ident.table : List Ident :=
  [.inGain, .outGain, .glide, .tapGain, .tapSource, .tapFixed, .tapTicks, .tapLfo, .tapDepth, .tapDamp, .lfoRate, .lfoShape, .lfoPhase,
   .tailFloor, .tailQuiet, .spillLimit, .routeInA, .routeInB, .routeOutA, .routeOutB]

theorem Ident.table_code (d : Ident) : Ident.table[d.code]? = some d := by
  cases d <;> rfl

theorem Ident.table_eq_some_iff {n : Nat} {d : Ident} : Ident.table[n]? = some d ↔ n = d.code := by
  refine ⟨fun h => ?_, fun h => h ▸ d.table_code⟩
  have hnodup : Ident.table.Nodup := by decide
  obtain ⟨hn, hd⟩ := List.getElem?_eq_some_iff.1 h
  obtain ⟨hc, hd'⟩ := List.getElem?_eq_some_iff.1 d.table_code
  exact (hnodup.getElem_inj_iff).1 (hd.trans hd'.symm)

theorem Ident.ofCode_eq_table (b : Byte) : Ident.ofCode b = Ident.table[b.toNat]? := by
  refine Option.ext fun d => ?_
  rw [Ident.ofCode_eq_some_iff, Ident.table_eq_some_iff]

/-- The values that are codes or routes, and their domains (R87). -/
theorem Ident.valueOk_iff_code (d : Ident) (v : Int) :
    d.valueOk v = true ↔ (d.code = 4 ∨ d.code = 11 → v = 0 ∨ v = 1) ∧ (d.code = 7 → v = 0 ∨ v = 1 ∨ v = 2) ∧
      (16 ≤ d.code → 0 ≤ v ∧ v ≤ 31 ∨ v = 255) := by
  cases d with
  | tapSource | lfoShape | tapLfo => simp [Ident.valueOk, Ident.code]; omega
  | _ => simp [Ident.valueOk, Ident.code]

/-! ### Codes and routes read back (R87, R91) -/

theorem sourceOfValue_code {v : Int} (h : v = 0 ∨ v = 1) : ((sourceOfValue v).code : Int) = v := by
  obtain rfl | rfl := h <;> rfl

theorem lfoSelOfValue_code {v : Int} (h : v = 0 ∨ v = 1 ∨ v = 2) : ((lfoSelOfValue v).code : Int) = v := by
  obtain rfl | rfl | rfl := h <;> rfl

theorem shapeOfValue_code {v : Int} (h : v = 0 ∨ v = 1) : ((shapeOfValue v).code : Int) = v := by
  obtain rfl | rfl := h <;> rfl

theorem routeValue_routeOf {v : Int} (h : 0 ≤ v ∧ v ≤ 31 ∨ v = 255) : routeValue (routeOf v) = v := by
  unfold routeOf
  split
  · simp only [routeValue]
    omega
  · simp only [routeValue]
    omega

/-! ### The values of a tap and of an LFO -/

/-- The stored value of a tap that an identifier names. -/
def Ident.tapValue (d : Ident) (t : TapProg) : Int :=
  match d with
  | .tapGain => t.gain
  | .tapSource => t.source.code
  | .tapFixed => t.fixed
  | .tapTicks => t.ticks
  | .tapLfo => t.lfo.code
  | .tapDepth => t.depth
  | _ => t.damp

/-- The stored value of an LFO that an identifier names. -/
def Ident.lfoValue (d : Ident) (l : LfoProg) : Int :=
  match d with
  | .lfoRate => l.rate
  | .lfoShape => l.shape.code
  | _ => l.phase

/-- A tap with the value of an identifier stored. -/
def Ident.storeTap (d : Ident) (v : Int) (t : TapProg) : TapProg :=
  match d with
  | .tapGain => { t with gain := v }
  | .tapSource => { t with source := sourceOfValue v }
  | .tapFixed => { t with fixed := v.toNat }
  | .tapTicks => { t with ticks := v.toNat }
  | .tapLfo => { t with lfo := lfoSelOfValue v }
  | .tapDepth => { t with depth := v.toNat }
  | _ => { t with damp := v.toNat }

/-- An LFO with the value of an identifier stored. -/
def Ident.storeLfo (d : Ident) (v : Int) (l : LfoProg) : LfoProg :=
  match d with
  | .lfoRate => { l with rate := v.toNat }
  | .lfoShape => { l with shape := shapeOfValue v }
  | _ => { l with phase := v.toNat }

section
variable {d d' : Ident} {k k' : Nat} {v : Int} {p : Program} {r : Routing}

theorem storedValue_of_tap (h : d.ofTap = true) : storedValue d k p r = d.tapValue (p.tapAt k) := by
  cases d with
  | tapGain | tapSource | tapFixed | tapTicks | tapLfo | tapDepth | tapDamp => rfl
  | _ => cases h

theorem storedValue_of_lfo (h : d.ofLfo = true) : storedValue d k p r = d.lfoValue (p.lfoAt k) := by
  cases d with
  | lfoRate | lfoShape | lfoPhase => rfl
  | _ => cases h

theorem Program.store_of_tap (h : d.ofTap = true) : Program.store d k v p = p.modTap k (d.storeTap v) := by
  cases d with
  | tapGain | tapSource | tapFixed | tapTicks | tapLfo | tapDepth | tapDamp => rfl
  | _ => cases h

theorem Program.store_of_lfo (h : d.ofLfo = true) : Program.store d k v p = p.modLfo k (d.storeLfo v) := by
  cases d with
  | lfoRate | lfoShape | lfoPhase => rfl
  | _ => cases h

/-- The taps and the LFOs leave every value of the other kinds. -/
theorem storedValue_modTap (h : d.ofTap = false) (g : TapProg → TapProg) : storedValue d k (p.modTap k' g) r = storedValue d k p r := by
  cases d with
  | tapGain | tapSource | tapFixed | tapTicks | tapLfo | tapDepth | tapDamp => cases h
  | _ => rfl

theorem storedValue_modLfo (h : d.ofLfo = false) (g : LfoProg → LfoProg) : storedValue d k (p.modLfo k' g) r = storedValue d k p r := by
  unfold Program.modLfo
  cases d with
  | lfoRate | lfoShape | lfoPhase => cases h
  | _ => split <;> rfl

theorem Program.tapAt_modTap (g : TapProg → TapProg) (hk : k < p.taps.length) :
    (p.modTap k g).tapAt k' = if k' = k then g (p.tapAt k) else p.tapAt k' := by
  unfold Program.tapAt Program.modTap
  simp only [List.getD_eq_getElem?_getD, List.getElem?_modify]
  by_cases h : k' = k
  · subst h
    simp [List.getElem?_eq_getElem hk]
  · simp [h, Ne.symm h]

theorem Program.lfoAt_modLfo (g : LfoProg → LfoProg) (hk : k < 2) (hk' : k' < 2) :
    (p.modLfo k g).lfoAt k' = if k' = k then g (p.lfoAt k) else p.lfoAt k' := by
  unfold Program.lfoAt Program.modLfo
  interval_cases k <;> interval_cases k' <;> rfl

/-- A value stored in a tap leaves the tap's other values. -/
theorem Ident.tapValue_storeTap_ne (hd : d.ofTap = true) (hd' : d'.ofTap = true) (hne : d' ≠ d) (t : TapProg) :
    d'.tapValue (d.storeTap v t) = d'.tapValue t := by
  cases d with
  | tapGain | tapSource | tapFixed | tapTicks | tapLfo | tapDepth | tapDamp =>
    cases d' with
    | tapGain | tapSource | tapFixed | tapTicks | tapLfo | tapDepth | tapDamp => first | rfl | exact absurd rfl hne
    | _ => cases hd'
  | _ => cases hd

theorem Ident.lfoValue_storeLfo_ne (hd : d.ofLfo = true) (hd' : d'.ofLfo = true) (hne : d' ≠ d) (l : LfoProg) :
    d'.lfoValue (d.storeLfo v l) = d'.lfoValue l := by
  cases d with
  | lfoRate | lfoShape | lfoPhase =>
    cases d' with
    | lfoRate | lfoShape | lfoPhase => first | rfl | exact absurd rfl hne
    | _ => cases hd'
  | _ => cases hd

/-- A value within its range and its domain reads back from its tap. -/
theorem Ident.tapValue_storeTap (hd : d.ofTap = true) (hlo : d.range.1 ≤ v) (hv : d.valueOk v = true) (t : TapProg) :
    d.tapValue (d.storeTap v t) = v := by
  rw [Ident.valueOk_iff_code] at hv
  cases d with
  | tapGain => rfl
  | tapSource => exact sourceOfValue_code (hv.1 (.inl rfl))
  | tapLfo => exact lfoSelOfValue_code (hv.2.1 rfl)
  | tapFixed | tapTicks | tapDepth | tapDamp => exact Int.toNat_of_nonneg (le_trans (by decide) hlo)
  | _ => cases hd

theorem Ident.lfoValue_storeLfo (hd : d.ofLfo = true) (hlo : d.range.1 ≤ v) (hv : d.valueOk v = true) (l : LfoProg) :
    d.lfoValue (d.storeLfo v l) = v := by
  rw [Ident.valueOk_iff_code] at hv
  cases d with
  | lfoShape => exact shapeOfValue_code (hv.1 (.inr rfl))
  | lfoRate | lfoPhase => exact Int.toNat_of_nonneg (le_trans (by decide) hlo)
  | _ => cases hd

/-! ### A value stored (R88, R89) -/

theorem Routing.store_of_tap_or_lfo (h : d.ofTap = true ∨ d.ofLfo = true) : r.store d v = r := by
  cases d with
  | routeInA | routeInB | routeOutA | routeOutB => simp [Ident.ofTap, Ident.ofLfo] at h
  | _ => rfl

theorem storedValue_store_self (htap : d.ofTap = true → k < p.taps.length) (hlfo : d.ofLfo = true → k < 2) (hlo : d.range.1 ≤ v)
    (hv : d.valueOk v = true) : storedValue d k (Program.store d k v p) (r.store d v) = v := by
  by_cases ht : d.ofTap = true
  · rw [storedValue_of_tap ht, Program.store_of_tap ht, Program.tapAt_modTap _ (htap ht), if_pos rfl, Ident.tapValue_storeTap ht hlo hv]
  · by_cases hl : d.ofLfo = true
    · rw [storedValue_of_lfo hl, Program.store_of_lfo hl, Program.lfoAt_modLfo _ (hlfo hl) (hlfo hl), if_pos rfl,
        Ident.lfoValue_storeLfo hl hlo hv]
    · rw [Ident.valueOk_iff_code] at hv
      cases d with
      | inGain | outGain | glide | tailFloor | tailQuiet | spillLimit => exact Int.toNat_of_nonneg (le_trans (by decide) hlo)
      | routeInA | routeInB | routeOutA | routeOutB => exact routeValue_routeOf (hv.2.2 (by decide))
      | tapGain | tapSource | tapFixed | tapTicks | tapLfo | tapDepth | tapDamp => exact absurd rfl ht
      | lfoRate | lfoShape | lfoPhase => exact absurd rfl hl

/-- A value stored under an identifier of its own leaves every value of the others. -/
theorem storedValue_store_scalar (ht : d.ofTap = false) (hl : d.ofLfo = false) (hne : d' ≠ d) :
    storedValue d' k' (Program.store d k v p) (r.store d v) = storedValue d' k' p r := by
  cases d with
  | tapGain | tapSource | tapFixed | tapTicks | tapLfo | tapDepth | tapDamp => cases ht
  | lfoRate | lfoShape | lfoPhase => cases hl
  | _ => cases d' <;> first | rfl | exact absurd rfl hne

theorem storedValue_store_ne (htap : d.ofTap = true → k < p.taps.length) (hlfo : d.ofLfo = true → k < 2)
    (hlfo' : d'.ofLfo = true → k' < 2) (hne : d' ≠ d ∨ (d.ofTap = true ∨ d.ofLfo = true) ∧ k' ≠ k) :
    storedValue d' k' (Program.store d k v p) (r.store d v) = storedValue d' k' p r := by
  by_cases ht : d.ofTap = true
  · rw [Program.store_of_tap ht, Routing.store_of_tap_or_lfo (.inl ht)]
    by_cases ht' : d'.ofTap = true
    · rw [storedValue_of_tap ht', storedValue_of_tap ht', Program.tapAt_modTap _ (htap ht)]
      split
      · next he => rw [he, Ident.tapValue_storeTap_ne ht ht' (hne.resolve_right fun h => h.2 he)]
      · rfl
    · exact storedValue_modTap (Bool.eq_false_iff.2 ht') _
  · by_cases hl : d.ofLfo = true
    · rw [Program.store_of_lfo hl, Routing.store_of_tap_or_lfo (.inr hl)]
      by_cases hl' : d'.ofLfo = true
      · rw [storedValue_of_lfo hl', storedValue_of_lfo hl', Program.lfoAt_modLfo _ (hlfo hl) (hlfo' hl')]
        split
        · next he => rw [he, Ident.lfoValue_storeLfo_ne hl hl' (hne.resolve_right fun h => h.2 he)]
        · rfl
      · exact storedValue_modLfo (Bool.eq_false_iff.2 hl') _
    · exact storedValue_store_scalar (Bool.eq_false_iff.2 ht) (Bool.eq_false_iff.2 hl)
        (hne.resolve_right fun h => h.1.elim ht hl)

/-- A store leaves the structure of the program. -/
theorem Program.store_structure : (Program.store d k v p).name = p.name ∧
    (Program.store d k v p).taps.map (fun t => (t.line, t.dest, t.hold)) = p.taps.map fun t => (t.line, t.dest, t.hold) := by
  by_cases ht : d.ofTap = true
  · rw [Program.store_of_tap ht]
    refine ⟨rfl, List.ext_getElem? fun n => ?_⟩
    simp only [Program.modTap, List.getElem?_map, List.getElem?_modify]
    cases p.taps[n]? with
    | none => rfl
    | some t =>
      by_cases hk : k = n
      · simp only [hk, if_true, Option.map_some]
        cases d <;> rfl
      · simp [hk]
  · by_cases hl : d.ofLfo = true
    · rw [Program.store_of_lfo hl, Program.modLfo]
      split <;> exact ⟨rfl, rfl⟩
    · cases d with
      | tapGain | tapSource | tapFixed | tapTicks | tapLfo | tapDepth | tapDamp => exact absurd rfl ht
      | lfoRate | lfoShape | lfoPhase => exact absurd rfl hl
      | _ => exact ⟨rfl, rfl⟩

end

theorem Running.store_of_ne {d : Ident} (h : d ≠ .lfoRate) (rate : SampleRate) (k : Nat) (v : Int) (r : Running) :
    Running.store rate d k v r = r := by
  cases d with
  | lfoRate => exact absurd rfl h
  | _ => rfl

/-- Settles O24: the table row by row, and a stored value by the kind of its identifier: a tap's, an LFO's, or one of its own. -/
theorem storedValueReadsBack : Obligations.StoredValueReadsBack := by
  refine ⟨?_, fun x p rate d k v hp htap hlfo hlo hhi hv => ?_⟩
  · intro rows
    have hrows : rows = Ident.table.map fun d => (d, d.range.1, d.range.2) := rfl
    rw [hrows]
    refine ⟨fun b => ?_, fun n d lo hi h => ?_⟩
    · rw [Ident.ofCode_eq_table, List.getElem?_map, Option.map_map]
      exact Option.map_id'.symm
    · rw [List.getElem?_map] at h
      obtain ⟨e, he, heq⟩ := Option.map_eq_some_iff.1 h
      obtain ⟨rfl, rfl, rfl⟩ : e = d ∧ e.range.1 = lo ∧ e.range.2 = hi := by
        simpa only [Prod.mk.injEq] using heq
      obtain rfl := Ident.table_eq_some_iff.1 he
      refine ⟨rfl, e.ofTap_iff, e.ofLfo_iff, fun x => ?_, e.valueOk_iff_code⟩
      rw [Ident.indexOk_iff, and_imp, and_imp]
  · refine ⟨Program.store d k v p, by simp [Inst.store, hp], storedValue_store_self htap hlfo hlo hv,
      fun d' k' hlfo' hne => storedValue_store_ne htap hlfo hlfo' hne, Program.store_lines d k v p, Program.store_structure.1,
      Program.store_structure.2, fun hne => ?_, ?_, rfl⟩
    · simp only [Inst.store, funext (Running.store_of_ne hne rate k v), Option.map_id']
    · rintro rfl
      rfl

end Sys2Proof.Machine
end

section
/-! The instance requests (R73, R74, R77 to R83, R99, R126, R166): every row is its operation with a reply, and the operation answers by the
state of the instance. Obligations O18, O20, O21, O22 and O32. -/

namespace Sys2Proof.Machine

/-! ### A request that names an instance (R73) -/

section
variable {s : State} {f : Frame} {rest : List Frame} {i : InstNo}

theorem ownInst_of_byte (hbyte : byteAt f.body 0 = instByte i) (act : InstNo → State → Status × State) (s : State) :
    ownInst act f s = answerInst f (act i s) := by
  simp only [ownInst, hbyte, instOf_instByte]

theorem ownInst_of_none (hnone : instOf (byteAt f.body 0) = none) (act : InstNo → State → Status × State) (s : State) :
    ownInst act f s = answerInst f (.badArg, s) := by
  simp only [ownInst, hnone]

/-- A row of one operation on an instance, taken in RUN. -/
theorem serveKind_ownInst {k : Kind} (act : InstNo → State → Status × State) (htake : CanTake s f rest) (hrun : s.run.isSome = true)
    (hkind : Kind.ofByte f.kind = some k) (hk : k ≠ .setup) (hlen : k.lengthOk f.body = true) (hbody : f.body = [instByte i]) :
    serveKind k (ownInst act) s = answerInst f (act i (s.takenInFlight rest)) := by
  rw [serveKind_of_run htake hrun hkind hlen hk, ownInst_of_byte (by rw [hbody]; rfl)]

theorem exec_start_of_run (htake : CanTake s f rest) (hrun : s.run.isSome = true) (hkind : f.kind = 0x22) (hbody : f.body = [instByte i]) :
    exec .start s = .next (answerInst f ((s.takenInFlight rest).doStart i)) :=
  congrArg Host.Outcome.next
    (serveKind_ownInst State.doStart htake hrun (by rw [hkind]; rfl) (by decide) (by rw [hbody]; rfl) hbody)

theorem exec_hold_of_run (htake : CanTake s f rest) (hrun : s.run.isSome = true) (hkind : f.kind = 0x24) (hbody : f.body = [instByte i]) :
    exec .hold s = .next (answerInst f ((s.takenInFlight rest).doHold i)) :=
  congrArg Host.Outcome.next
    (serveKind_ownInst State.doHold htake hrun (by rw [hkind]; rfl) (by decide) (by rw [hbody]; rfl) hbody)

theorem exec_unhold_of_run (htake : CanTake s f rest) (hrun : s.run.isSome = true) (hkind : f.kind = 0x25) (hbody : f.body = [instByte i]) :
    exec .unhold s = .next (answerInst f ((s.takenInFlight rest).doUnhold i)) :=
  congrArg Host.Outcome.next
    (serveKind_ownInst State.doUnhold htake hrun (by rw [hkind]; rfl) (by decide) (by rw [hbody]; rfl) hbody)

/-- A row of STOP takes a frame that is its own (log 2). -/
theorem serve_stop {mine : Frame → Bool} (htake : CanTake s f rest) (hrun : s.run.isSome = true) (hkind : f.kind = 0x23)
    (hlen : f.body.length = 2) (hmine : mine f = true) : serve .stop mine ownStop s = ownStop f (s.takenInFlight rest) :=
  serve_owner htake (by rw [hkind]; rfl) hmine
    (State.precheck_takenInFlight_of_run rest hrun (lengthOk_stop_iff.2 hlen) (by decide))

theorem exec_stopSpill_of_run (htake : CanTake s f rest) (hrun : s.run.isSome = true) (hkind : f.kind = 0x23)
    (hbody : f.body = [instByte i, 0]) : exec .stopSpill s = .next (answerInst f ((s.takenInFlight rest).doStopSpill i)) := by
  rw [exec_stopSpill_eq_serve, serve_stop htake hrun hkind (by rw [hbody]; rfl) (by simp [stopsSpill, hbody, u1At, byteAt]),
    ← ownInst_of_byte (by rw [hbody]; rfl)]
  simp only [ownStop, hbody, u1At, byteAt]
  rfl

theorem exec_stopCut_of_run (htake : CanTake s f rest) (hrun : s.run.isSome = true) (hkind : f.kind = 0x23)
    (hbody : f.body = [instByte i, 1]) : exec .stopCut s = .next (answerInst f ((s.takenInFlight rest).doStopCut i)) := by
  rw [exec_stopCut_eq_serve, serve_stop htake hrun hkind (by rw [hbody]; rfl) (by simp [stopsCut, hbody, u1At, byteAt]),
    ← ownInst_of_byte (by rw [hbody]; rfl)]
  simp only [ownStop, hbody, u1At, byteAt]
  rfl

end

/-! ### Head service, step by step (R101 to R105) -/

section
variable {i : InstNo} {counts : Counts} {s : State} {rest : List InstNo}

/-- Nothing is stolen for an instance that fits. -/
theorem stealUntil_of_fits (n : Nat) (h : s.instFits i counts = true) : stealUntil i n counts s = (true, s) := by
  cases n with
  | zero => simp [stealUntil, h]
  | succ n => simp [stealUntil, h]

/-- With nothing left to steal the instance does not fit. -/
theorem stealUntil_of_nil (n : Nat) (h : ¬ s.instFits i counts = true) (hs : s.spill = []) : stealUntil i n counts s = (false, s) := by
  cases n with
  | zero => simp [stealUntil, h]
  | succ n => simp [stealUntil, h, hs]

/-- The oldest tail is stolen, and the counts grow by its holdings. -/
theorem stealUntil_of_cons {j : InstNo} (n : Nat) (h : ¬ s.instFits i counts = true) (hs : s.spill = j :: rest) :
    stealUntil i (n + 1) counts s = stealUntil i n (counts.plus (s.inst j)) (s.steal j) := by
  simp [stealUntil, h, hs]

theorem serveHeads_of_nil (n : Nat) (hq : s.queue = []) : serveHeads n s = s := by
  cases n with
  | zero => rfl
  | succ n => simp [serveHeads, hq]

theorem serveHeads_of_fits (n : Nat) (hq : s.queue = i :: rest) (h : s.instFits i s.freeCounts = true) :
    serveHeads (n + 1) s = serveHeads n (s.admitHead i) := by
  simp [serveHeads, hq, h]

theorem serveHeads_of_wait (n : Nat) (hq : s.queue = i :: rest) (h : ¬ s.instFits i s.freeCounts = true)
    (hwait : (stealUntil i s.spill.length s.enlargedCounts s).1 = true) :
    serveHeads (n + 1) s = (stealUntil i s.spill.length s.enlargedCounts s).2 := by
  simp [serveHeads, hq, h, hwait]

theorem serveHeads_of_giveUp (n : Nat) (hq : s.queue = i :: rest) (h : ¬ s.instFits i s.freeCounts = true)
    (hwait : ¬ (stealUntil i s.spill.length s.enlargedCounts s).1 = true) :
    serveHeads (n + 1) s = serveHeads n ((stealUntil i s.spill.length s.enlargedCounts s).2.giveUp i) := by
  simp [serveHeads, hq, h, hwait]

end

/-! ### Operations that do not look at the link -/

/-- An operation that neither reads nor writes the link. -/
def IgnoresLink (g : State → State) : Prop :=
  ∀ (l : Link) (s : State), g { s with link := l } = { g s with link := l }

section
variable {g : State → State}

theorem IgnoresLink.link (hg : IgnoresLink g) (s : State) : (g s).link = s.link :=
  (congrArg State.link (hg s.link s) :)

/-- Such an operation commutes with the taking of a request. -/
theorem IgnoresLink.takenInFlight (hg : IgnoresLink g) (rest : List Frame) (s : State) :
    g (s.takenInFlight rest) = (g s).takenInFlight rest := by
  unfold State.takenInFlight
  rw [hg, hg.link]

theorem ignoresLink_raise (k : Condition) : IgnoresLink (State.raise k) := fun _ _ => rfl

/-- Nothing is admitted in SETUP, or without a program. -/
theorem State.admission_eq_self {i : InstNo} {s : State} (h : s.run = none ∨ (s.inst i).program = none) : s.admission i = s := by
  unfold State.admission
  split
  · next hr hp => simp [hr, hp] at h
  · rfl

theorem ignoresLink_admission (i : InstNo) : IgnoresLink (State.admission i) := by
  intro l s
  obtain hr | ⟨r, hr⟩ := Option.eq_none_or_eq_some s.run
  · rw [State.admission_eq_self (.inl hr), State.admission_eq_self (s := { s with link := l }) (.inl hr)]
  · obtain hp | ⟨p, hp⟩ := Option.eq_none_or_eq_some (s.inst i).program
    · rw [State.admission_eq_self (.inr hp), State.admission_eq_self (s := { s with link := l }) (.inr hp)]
    · rw [State.admission_eq hr hp, State.admission_eq (s := { s with link := l }) hr hp]
      rfl

theorem ignoresLink_admitHead (i : InstNo) : IgnoresLink (State.admitHead i) := fun l s =>
  congrArg (State.raise (.admitted i)) (ignoresLink_admission i l { s with queue := s.queue.erase i })

theorem stealUntil_setLink (i : InstNo) (n : Nat) (l : Link) : ∀ (counts : Counts) (s : State),
    stealUntil i n counts { s with link := l } =
      ((stealUntil i n counts s).1, { (stealUntil i n counts s).2 with link := l }) := by
  induction n with
  | zero => exact fun _ _ => rfl
  | succ n ih =>
    intro counts s
    have hfit : State.instFits { s with link := l } i counts = s.instFits i counts := rfl
    by_cases h : s.instFits i counts = true
    · rw [stealUntil_of_fits (n + 1) h, stealUntil_of_fits (n + 1) (hfit.trans h)]
    · have h' : ¬ State.instFits { s with link := l } i counts = true := by rwa [hfit]
      by_cases hs : s.spill = []
      · rw [stealUntil_of_nil (n + 1) h hs, stealUntil_of_nil (s := { s with link := l }) (n + 1) h' hs]
      · obtain ⟨j, rest, hs⟩ := List.exists_cons_of_ne_nil hs
        rw [stealUntil_of_cons n h hs, stealUntil_of_cons (s := { s with link := l }) n h' hs]
        exact ih (counts.plus (s.inst j)) (s.steal j)

theorem ignoresLink_serveHeads (n : Nat) : IgnoresLink (serveHeads n) := by
  induction n with
  | zero => exact fun _ _ => rfl
  | succ n ih =>
    intro l s
    by_cases hq : s.queue = []
    · rw [serveHeads_of_nil _ hq, serveHeads_of_nil (s := { s with link := l }) _ hq]
    · obtain ⟨i, rest, hq⟩ := List.exists_cons_of_ne_nil hq
      have hfit : State.instFits { s with link := l } i (State.freeCounts { s with link := l }) = s.instFits i s.freeCounts := rfl
      have hsteal : stealUntil i (State.spill { s with link := l }).length (State.enlargedCounts { s with link := l }) { s with link := l } =
          ((stealUntil i s.spill.length s.enlargedCounts s).1,
            { (stealUntil i s.spill.length s.enlargedCounts s).2 with link := l }) := stealUntil_setLink i _ l _ s
      by_cases h : s.instFits i s.freeCounts = true
      · rw [serveHeads_of_fits n hq h, serveHeads_of_fits (s := { s with link := l }) n hq (hfit.trans h), ignoresLink_admitHead]
        exact ih l _
      · have h' : ¬ State.instFits { s with link := l } i (State.freeCounts { s with link := l }) = true := by rwa [hfit]
        by_cases hwait : (stealUntil i s.spill.length s.enlargedCounts s).1 = true
        · rw [serveHeads_of_wait n hq h hwait,
            serveHeads_of_wait (s := { s with link := l }) n hq h' (by rw [hsteal]; exact hwait), hsteal]
        · rw [serveHeads_of_giveUp n hq h hwait,
            serveHeads_of_giveUp (s := { s with link := l }) n hq h' (by rw [hsteal]; exact hwait), hsteal]
          exact ih l ((stealUntil i s.spill.length s.enlargedCounts s).2.giveUp i)

theorem ignoresLink_headService : IgnoresLink State.headService := fun l s => ignoresLink_serveHeads s.queue.length l s

/-- The reply to a request whose operation does not look at the link. -/
theorem answerInst_of_ignoresLink (hg : IgnoresLink g) {f : Frame} {i : InstNo} (hbyte : byteAt f.body 0 = instByte i) (rest : List Frame)
    (st : Status) (s : State) : answerInst f (st, g (s.takenInFlight rest)) = (g s).repliedInst f rest st i := by
  rw [hg.takenInFlight, answerInst_takenInFlight hbyte]

end

/-! ### START (R74, R77, R78, R99) -/

section
variable {s : State} {f : Frame} {rest : List Frame} {i : InstNo}

theorem instFits_of_program {p : Program} (hp : (s.inst i).program = some p) (n : Counts) : s.instFits i n = fits p n := by
  simp [State.instFits, hp]

/-- The fit tests of a START do not look at the link. -/
theorem startReady_takenInFlight (rest : List Frame) (i : InstNo) (s : State) :
    (s.takenInFlight rest).startReady i =
      if s.queue.isEmpty && s.instFits i s.freeCounts then (.ok, (s.takenInFlight rest).admission i)
      else if s.queue.isEmpty && !s.instFits i s.prospectiveCounts then (.noRoom, s.takenInFlight rest)
      else
        (.ok, State.headService (State.takenInFlight rest
          (State.modInst i (fun x => { x with state := .waiting }) { s with queue := s.queue ++ [i] }))) := rfl

/-- Settles O20: START by the state of the instance, and of a READY one by the queue and the two fit tests. -/
theorem startInEveryState : Obligations.StartInEveryState := by
  refine ⟨fun s f rest i htake hrun hkind hbody => ?_, fun s f rest i p htake hrun hkind hbody hstate hp => ?_⟩
  · have hbyte : byteAt f.body 0 = instByte i := by rw [hbody]; rfl
    rw [exec_start_of_run htake hrun hkind hbody]
    have hstart : (s.takenInFlight rest).doStart i = match (s.inst i).state with
      | .empty | .held => (.badState, s.takenInFlight rest)
      | .ready => (s.takenInFlight rest).startReady i
      | .waiting | .running => (.ok, s.takenInFlight rest)
      | .spilling => (.ok, (s.takenInFlight rest).resume i)
      | .cutting => (.busy, s.takenInFlight rest) := rfl
    rw [hstart]
    refine ⟨fun h => ?_, fun h => ?_, fun h => ?_, fun h => ?_⟩
    · obtain h | h := h <;> rw [h] <;> exact congrArg Host.Outcome.next (answerInst_takenInFlight hbyte rest _ s)
    · obtain h | h := h <;> rw [h] <;> exact congrArg Host.Outcome.next (answerInst_takenInFlight hbyte rest _ s)
    · rw [h]
      exact congrArg Host.Outcome.next (answerInst_takenInFlight hbyte rest _ s)
    · rw [h]
      exact congrArg Host.Outcome.next (answerInst_of_ignoresLink (g := State.resume i) (fun _ _ => rfl) hbyte rest _ s)
  · have hbyte : byteAt f.body 0 = instByte i := by rw [hbody]; rfl
    have hstart : (s.takenInFlight rest).doStart i = (s.takenInFlight rest).startReady i := by
      simp only [State.doStart, State.takenInFlight_inst, hstate]
    rw [exec_start_of_run htake hrun hkind hbody, hstart, startReady_takenInFlight, instFits_of_program hp, instFits_of_program hp]
    refine ⟨fun hq hfree => ?_, fun hq hfree hpros => ?_, fun h => ?_⟩
    · simp only [hq, hfree, List.isEmpty_nil, Bool.and_self, if_true]
      exact congrArg Host.Outcome.next (answerInst_of_ignoresLink (ignoresLink_admission i) hbyte rest _ s)
    · simp only [hq, hfree, hpros, List.isEmpty_nil, Bool.and_false, Bool.not_false, Bool.and_self, if_true, if_false, Bool.false_eq_true]
      exact congrArg Host.Outcome.next (answerInst_takenInFlight hbyte rest _ s)
    · have h1 : (s.queue.isEmpty && fits p s.freeCounts) = false := by
        obtain h | ⟨h, -⟩ := h
        · simp [h]
        · simp [h]
      have h2 : (s.queue.isEmpty && !fits p s.prospectiveCounts) = false := by
        obtain h | ⟨-, h⟩ := h
        · simp [h]
        · simp [h]
      simp only [h1, h2, if_false, Bool.false_eq_true]
      exact congrArg Host.Outcome.next (answerInst_of_ignoresLink ignoresLink_headService hbyte rest _ _)

/-! ### STOP (R74, R79 to R81, R166) -/

/-- A WAITING instance leaves the queue without a look at the link. -/
theorem ignoresLink_dequeue (i : InstNo) : IgnoresLink (State.dequeue i) := by
  intro l s
  unfold State.dequeue
  by_cases h : s.queue.head? = some i
  · simp only [h, if_true]
    exact ignoresLink_headService l
      (State.modInst i (fun x => { x with state := .ready }) { s with queue := s.queue.erase i })
  · simp only [h, if_false]
    rfl

/-- The access of an instance that leaves HELD is answered in its own reserved place, ahead of the request's reply (log 13). -/
theorem answerInst_abortAccessOf {g : State → State} (hg : IgnoresLink g) (hbyte : byteAt f.body 0 = instByte i) (rest : List Frame)
    (j : InstNo) (st : Status) (s : State) :
    answerInst f (st, g ((s.takenInFlight rest).abortAccessOf j)) = (g (s.abortAccessOf j)).repliedInst f rest st i := by
  have hlink (u : State) (r : Nat) (hr : r - 1 = u.link.reserved) :
      answerInst f (st, g { u with link := { u.link with inbox := rest, reserved := r } }) = (g u).repliedInst f rest st i := by
    have hset := hg { u.link with inbox := rest, reserved := r } u
    rw [hset]
    simp only [answerInst, instBody, hbyte, instOf_instByte, u1_eq, State.answer, State.place, State.repliedInst, State.replied, hg.link, hr]
    rfl
  unfold State.abortAccessOf
  simp only [State.takenInFlight_access]
  cases ha : s.access with
  | none => exact hlink s (s.link.reserved + 1) rfl
  | some a =>
    by_cases hj : a.inst = j
    · simp only [hj, if_true, State.endAccess, State.takenInFlight_access, ha]
      exact hlink (State.place (a.reply .aborted) { s with access := none }) (s.link.reserved + 1 - 1) rfl
    · simp only [hj, if_false]
      exact hlink s (s.link.reserved + 1) rfl

/-- Settles O21: each mode by the state of the instance; a HELD one ends its access first. -/
theorem stopMovesTheInstance : Obligations.StopMovesTheInstance := by
  intro s f rest i htake hrun hkind spilling cutting dequeued
  have hdequeue : s.dequeue i = if s.queue.head? = some i then dequeued.headService else dequeued := rfl
  refine ⟨fun hbody => ?_, fun hbody => ?_⟩
  · have hbyte : byteAt f.body 0 = instByte i := by rw [hbody]; rfl
    rw [exec_stopSpill_of_run htake hrun hkind hbody]
    have hstop : (s.takenInFlight rest).doStopSpill i = match (s.inst i).state with
      | .empty | .ready | .spilling | .cutting => (.ok, s.takenInFlight rest)
      | .waiting => (.ok, (s.takenInFlight rest).dequeue i)
      | .running => (.ok, (s.takenInFlight rest).toSpilling i)
      | .held => (.ok, ((s.takenInFlight rest).abortAccessOf i).toSpilling i) := rfl
    rw [hstop, ← hdequeue]
    refine ⟨fun h => ?_, fun h => ?_, fun h => ?_, fun h => ?_⟩
    · obtain h | h | h | h := h <;> rw [h] <;> exact congrArg Host.Outcome.next (answerInst_takenInFlight hbyte rest _ s)
    · rw [h]
      exact congrArg Host.Outcome.next (answerInst_of_ignoresLink (ignoresLink_dequeue i) hbyte rest _ s)
    · rw [h]
      exact congrArg Host.Outcome.next (answerInst_of_ignoresLink (g := State.toSpilling i) (fun _ _ => rfl) hbyte rest _ s)
    · rw [h]
      exact congrArg Host.Outcome.next (answerInst_abortAccessOf (g := State.toSpilling i) (fun _ _ => rfl) hbyte rest i _ s)
  · have hbyte : byteAt f.body 0 = instByte i := by rw [hbody]; rfl
    rw [exec_stopCut_of_run htake hrun hkind hbody]
    have hstop : (s.takenInFlight rest).doStopCut i = match (s.inst i).state with
      | .empty | .ready | .cutting => (.ok, s.takenInFlight rest)
      | .waiting => (.ok, (s.takenInFlight rest).dequeue i)
      | .running | .spilling => (.ok, (s.takenInFlight rest).toCutting i .user)
      | .held => (.ok, ((s.takenInFlight rest).abortAccessOf i).toCutting i .user) := rfl
    rw [hstop, ← hdequeue]
    refine ⟨fun h => ?_, fun h => ?_, fun h => ?_, fun h => ?_⟩
    · obtain h | h | h := h <;> rw [h] <;> exact congrArg Host.Outcome.next (answerInst_takenInFlight hbyte rest _ s)
    · rw [h]
      exact congrArg Host.Outcome.next (answerInst_of_ignoresLink (ignoresLink_dequeue i) hbyte rest _ s)
    · obtain h | h := h <;> rw [h] <;>
        exact congrArg Host.Outcome.next (answerInst_of_ignoresLink (g := State.toCutting i .user) (fun _ _ => rfl) hbyte rest _ s)
    · rw [h]
      exact congrArg Host.Outcome.next (answerInst_abortAccessOf (g := State.toCutting i .user) (fun _ _ => rfl) hbyte rest i _ s)

/-! ### HOLD and UNHOLD (R74, R82, R83, R166) -/

/-- Settles O22: each request by the state of the instance, and the abort by what the access is on and what it does. -/
theorem holdUnholdAndTheAccess : Obligations.HoldUnholdAndTheAccess := by
  refine ⟨fun s f rest i htake hrun hbody => ⟨fun hkind => ?_, fun hkind => ?_⟩, fun s i => ⟨fun hnone => ?_, fun a ha => ⟨fun hne => ?_,
    fun heq => ⟨fun hop => ?_, fun vs hop => ?_⟩⟩⟩⟩
  · have hbyte : byteAt f.body 0 = instByte i := by rw [hbody]; rfl
    rw [exec_hold_of_run htake hrun hkind hbody]
    have hhold : (s.takenInFlight rest).doHold i = match (s.inst i).state with
      | .running => (.ok, (s.takenInFlight rest).modInst i fun x => { x with state := .held })
      | .held => (.ok, s.takenInFlight rest)
      | .empty | .ready | .waiting | .spilling | .cutting => (.badState, s.takenInFlight rest) := rfl
    rw [hhold]
    refine ⟨fun h => ?_, fun h => ?_, fun h1 h2 => ?_⟩
    · rw [h]
      exact congrArg Host.Outcome.next
        (answerInst_of_ignoresLink (g := State.modInst i fun x => { x with state := .held }) (fun _ _ => rfl) hbyte rest _ s)
    · rw [h]
      exact congrArg Host.Outcome.next (answerInst_takenInFlight hbyte rest _ s)
    · split
      · next h => exact absurd h h1
      · next h => exact absurd h h2
      all_goals exact congrArg Host.Outcome.next (answerInst_takenInFlight hbyte rest _ s)
  · have hbyte : byteAt f.body 0 = instByte i := by rw [hbody]; rfl
    rw [exec_unhold_of_run htake hrun hkind hbody]
    have hunhold : (s.takenInFlight rest).doUnhold i = match (s.inst i).state with
      | .held => (.ok, ((s.takenInFlight rest).abortAccessOf i).modInst i fun x => { x with state := .running })
      | .running => (.ok, s.takenInFlight rest)
      | .empty | .ready | .waiting | .spilling | .cutting => (.badState, s.takenInFlight rest) := rfl
    rw [hunhold]
    refine ⟨fun h => ?_, fun h => ?_, fun h1 h2 => ?_⟩
    · rw [h, ← State.abortAccessOf_inst i i s]
      exact congrArg Host.Outcome.next
        (answerInst_abortAccessOf (g := State.modInst i fun x => { x with state := .running }) (fun _ _ => rfl) hbyte rest i _ s)
    · rw [h]
      exact congrArg Host.Outcome.next (answerInst_takenInFlight hbyte rest _ s)
    · split
      · next h => exact absurd h h2
      · next h => exact absurd h h1
      all_goals exact congrArg Host.Outcome.next (answerInst_takenInFlight hbyte rest _ s)
  · simp [State.abortAccessOf, hnone]
  · simp [State.abortAccessOf, ha, hne]
  · simp only [State.abortAccessOf, ha, heq, if_true, State.endAccess, LineAccess.reply, LineAccess.body, hop]
    rfl
  · simp only [State.abortAccessOf, ha, heq, if_true, State.endAccess, LineAccess.reply, LineAccess.body, hop]
    rfl

end

end Sys2Proof.Machine
end

section
/-! Fields outside their domains, SET and GET, and cue entries as requests (R73, R87 to R91, R126): obligations O18, O23 and O32. -/

namespace Sys2Proof.Machine

/-! ### Bytes of the bodies -/

theorem instOf_eq_none {b : Byte} (h : 24 ≤ b.toNat) : instOf b = none := by
  unfold instOf
  rw [dif_neg (by omega)]

theorem slotOf_eq_none {b : Byte} (h : 64 ≤ b.toNat) : slotOf b = none := by
  unfold slotOf
  rw [dif_neg (by omega)]

/-- The identifier and the index of a body, where both are in their domains. -/
theorem identAt_eq_some_iff {body : List Byte} {k : Nat} {d : Ident} :
    identAt body k = some d ↔ (byteAt body k).toNat = d.code ∧ d.indexOk (byteAt body (k + 1)) = true := by
  rw [← Ident.ofCode_eq_some_iff]
  unfold identAt
  cases h : Ident.ofCode (byteAt body k) with
  | none => simp
  | some e =>
    by_cases hx : e.indexOk (byteAt body (k + 1)) = true
    · simp only [hx, if_true, Option.some.injEq]
      exact ⟨fun he => ⟨he, he ▸ hx⟩, And.left⟩
    · simp only [hx, if_false, Bool.false_eq_true, Option.some.injEq]
      exact ⟨nofun, fun he => absurd (he.1 ▸ he.2) hx⟩

section
variable {s : State} {f : Frame} {rest : List Frame} {i : InstNo}

/-! ### The second check (R73) -/

/-- The reply to a request whose first body byte names no instance (R203). -/
theorem answerInst_takenInFlight_none {b : Byte} (hbyte : byteAt f.body 0 = b) (hb : 24 ≤ b.toNat) (rest : List Frame) (s : State) :
    answerInst f (.badArg, s.takenInFlight rest) = s.replied f rest .badArg [b, 0xFF] := by
  simp only [answerInst, instBody, hbyte, instOf_eq_none hb, u1_eq]
  rfl

/-- Row `c` serves the frames of kind `k` that are `mine` for an owner that answers a body without an instance BAD_ARG. -/
structure InstanceRow (c : Instr) (k : Kind) (mine : Frame → Bool) (owner : Frame → State → State) : Prop where
  exec_eq : ∀ s, exec c s = .next (serve k mine owner s)
  other   : ∀ f, mine f = false → c = .stopSpill ∧ u1At f.body 1 = 1 ∨ c = .stopCut ∧ u1At f.body 1 = 0
  none    : ∀ f s, instOf (byteAt f.body 0) = none → owner f s = answerInst f (.badArg, s)

theorem instanceRow_of_ownInst {c : Instr} {k : Kind} {act : InstNo → State → Status × State}
    (h : ∀ s, exec c s = .next (serveKind k (ownInst act) s)) : InstanceRow c k (fun _ => true) (ownInst act) :=
  ⟨h, fun _ hother => absurd hother (by decide), fun _ s hnone => ownInst_of_none hnone act s⟩

theorem ownStop_of_none (hnone : instOf (byteAt f.body 0) = none) (s : State) : ownStop f s = answerInst f (.badArg, s) := by
  unfold ownStop
  split
  · exact ownInst_of_none hnone _ s
  · exact ownInst_of_none hnone _ s
  · rfl

/-- Each request that names an instance is such a row. -/
theorem exists_instanceRow {c : Instr} {k : Kind} (h : requestKind c = some k)
    (hk : k ∈ [Kind.load, .unload, .start, .stop, .hold, .unhold, .set, .get, .instanceStatus]) :
    ∃ mine owner, InstanceRow c k mine owner := by
  cases c <;> cases h
  case unload | start | hold | unhold => exact ⟨_, _, instanceRow_of_ownInst fun _ => rfl⟩
  case stopSpill =>
    exact ⟨_, _, exec_stopSpill_eq_serve, fun f hother => .inl ⟨rfl, (stopsSpill_eq_false_iff.1 hother).2⟩, fun _ s h => ownStop_of_none h s⟩
  case stopCut =>
    exact ⟨_, _, exec_stopCut_eq_serve, fun f hother => .inr ⟨rfl, (stopsCut_eq_false_iff.1 hother).2⟩, fun _ s h => ownStop_of_none h s⟩
  case load | set | get =>
    refine ⟨fun _ => true, _, fun _ => rfl, fun _ hother => absurd hother (by decide), fun f s hnone => ?_⟩
    simp only [ownLoad, ownSet, ownGet, hnone]
  case instanceStatus =>
    refine ⟨fun _ => true, _, fun _ => rfl, fun _ hother => absurd hother (by decide), fun f s hnone => ?_⟩
    simp only [ownInstStatus, hnone]
  all_goals exact absurd hk (by decide)

theorem InstanceRow.exec_badArg {c : Instr} {k : Kind} {mine : Frame → Bool} {owner : Frame → State → State}
    (row : InstanceRow c k mine owner) (htake : CanTake s f rest) (hrun : s.run.isSome = true) (hkind : Kind.ofByte f.kind = some k)
    (hk : k ≠ .setup) (hlen : k.lengthOk f.body = true) {b : Byte} (hbyte : byteAt f.body 0 = b) (hb : 24 ≤ b.toNat)
    (hspill : c = .stopSpill → u1At f.body 1 ≠ 1) (hcut : c = .stopCut → u1At f.body 1 ≠ 0) :
    exec c s = .next (s.replied f rest .badArg [b, 0xFF]) := by
  have hmine : mine f = true := by
    by_contra hmine
    obtain ⟨hc, hmode⟩ | ⟨hc, hmode⟩ := row.other f (Bool.eq_false_iff.2 hmine)
    · exact hspill hc hmode
    · exact hcut hc hmode
  rw [row.exec_eq, serve_owner htake hkind hmine (State.precheck_takenInFlight_of_run rest hrun hlen hk),
    row.none f _ (by rw [hbyte]; exact instOf_eq_none hb), answerInst_takenInFlight_none hbyte hb]

/-! ### SET and GET taken (R87, R91) -/

theorem exec_set_of_run (htake : CanTake s f rest) (hrun : s.run.isSome = true) (hkind : f.kind = 0x26) (hlen : f.body.length = 7) :
    exec .set s = .next (ownSet f (s.takenInFlight rest)) :=
  congrArg Host.Outcome.next (serveKind_of_run htake hrun (by rw [hkind]; rfl) (beq_iff_eq.2 hlen) (by decide))

theorem exec_get_of_run (htake : CanTake s f rest) (hrun : s.run.isSome = true) (hkind : f.kind = 0x27) (hlen : f.body.length = 3) :
    exec .get s = .next (ownGet f (s.takenInFlight rest)) :=
  congrArg Host.Outcome.next (serveKind_of_run htake hrun (by rw [hkind]; rfl) (beq_iff_eq.2 hlen) (by decide))

/-- A SET whose fields fail the second check (R73, R87). -/
theorem ownSet_of_bad (hbyte : byteAt f.body 0 = instByte i)
    (hbad : ∀ d, identAt f.body 1 = some d → d.valueOk (setValueAt f.body 3) = false) (s : State) :
    ownSet f s = answerInst f (.badArg, s) := by
  simp only [ownSet, hbyte, instOf_instByte]
  cases hd : identAt f.body 1 with
  | none => rfl
  | some d => simp [hbad d hd]

theorem ownGet_of_bad (hbyte : byteAt f.body 0 = instByte i) (hbad : identAt f.body 1 = none) (s : State) :
    ownGet f s = answerInst f (.badArg, s) := by
  simp only [ownGet, hbyte, instOf_instByte, hbad]

/-- A SET whose fields pass the second check is its operation with the reply (R73, R88). -/
theorem ownSet_of_good {d : Ident} (hbyte : byteAt f.body 0 = instByte i) (hd : identAt f.body 1 = some d)
    (hv : d.valueOk (setValueAt f.body 3) = true) (s : State) :
    ownSet f s =
      let o := s.doSet i d (u1At f.body 2) (setValueAt f.body 3)
      if o.1 = .ok ∨ o.1 = .clamped then
        o.2.answer f o.1 (instBody (byteAt f.body 0) o.2 ++ s4 (d.clamp (setValueAt f.body 3)))
      else answerInst f o := by
  simp only [ownSet, hbyte, instOf_instByte, hd, hv, if_true]

end

/-- Settles O18: an owner looks at the fields before the instance. -/
theorem instanceRequestsRefuseBadFields : Obligations.InstanceRequestsRefuseBadFields := by
  intro s f rest htake hrun
  refine ⟨fun c k b hrow hk hkind hlen hbyte hb hspill hcut => ?_, fun i => ⟨fun b hkind hbody hb => ?_, fun m hkind hbody hm => ?_,
    fun d x v => ⟨fun hkind hbody hv hbad => ?_, fun hkind hbody hbad => ?_⟩⟩⟩
  · obtain ⟨mine, owner, row⟩ := exists_instanceRow hrow hk
    exact row.exec_badArg htake hrun hkind (by rintro rfl; simp at hk) hlen hbyte hb hspill hcut
  · have hbyte : byteAt f.body 0 = instByte i := by rw [hbody]; rfl
    have hslot : byteAt f.body 1 = b := by rw [hbody]; rfl
    have howner : ownLoad f (s.takenInFlight rest) = answerInst f (.badArg, s.takenInFlight rest) := by
      simp only [ownLoad, hbyte, hslot, instOf_instByte, slotOf_eq_none hb]
    rw [exec_load, serveKind_of_run htake hrun (by rw [hkind]; rfl) (by rw [hbody]; rfl) (by decide), howner,
      answerInst_takenInFlight hbyte]
  · have hbyte : byteAt f.body 0 = instByte i := by rw [hbody]; rfl
    have hmode : u1At f.body 1 = m.toNat := by rw [hbody]; rfl
    have hlen : f.body.length = 2 := by rw [hbody]; rfl
    have howner : ownStop f (s.takenInFlight rest) = s.repliedInst f rest .badArg i := by
      unfold ownStop
      split
      · next h => omega
      · next h => omega
      · exact answerInst_takenInFlight hbyte rest _ s
    refine ⟨?_, ?_⟩
    · rw [exec_stopSpill_eq_serve, serve_stop htake hrun hkind hlen, howner]
      rw [← Bool.not_eq_false, stopsSpill_eq_false_iff]
      omega
    · rw [exec_stopCut_eq_serve, serve_stop htake hrun hkind hlen, howner]
      rw [← Bool.not_eq_false, stopsCut_eq_false_iff]
      omega
  · have hbyte : byteAt f.body 0 = instByte i := by rw [hbody]; rfl
    have hident : byteAt f.body 1 = d := by rw [hbody]; rfl
    have hindex : byteAt f.body 2 = x := by rw [hbody]; rfl
    have hvalue : uAt 4 f.body 3 = beVal v := by rw [hbody, uAt]; simp [← hv]
    have hlt : beVal v < 2 ^ 32 := by have := beVal_lt v; rw [hv] at this; exact this
    rw [exec_set_of_run htake hrun hkind (by rw [hbody]; simp [hv]), ownSet_of_bad hbyte, answerInst_takenInFlight hbyte]
    intro e he
    rw [identAt_eq_some_iff, hident, hindex, Ident.indexOk_iff] at he
    rw [setValueAt, hvalue, ← Bool.not_eq_true, Ident.valueOk_iff, BitVec.toNat_ofNat, Nat.mod_eq_of_lt hlt]
    obtain ⟨hcode, htap, hlfo⟩ := he
    have hcode_lt := e.code_lt
    have h4 : d = 4 ↔ d.toNat = 4 := BitVec.toNat_inj.symm
    have h11 : d = 11 ↔ d.toNat = 11 := BitVec.toNat_inj.symm
    have h7 : d = 7 ↔ d.toNat = 7 := BitVec.toNat_inj.symm
    rw [h4, h11, h7, hcode] at hbad
    omega
  · have hbyte : byteAt f.body 0 = instByte i := by rw [hbody]; rfl
    have hident : byteAt f.body 1 = d := by rw [hbody]; rfl
    have hindex : byteAt f.body 2 = x := by rw [hbody]; rfl
    rw [exec_get_of_run htake hrun hkind (by rw [hbody]; rfl), ownGet_of_bad hbyte, answerInst_takenInFlight hbyte]
    rw [Option.eq_none_iff_forall_ne_some]
    intro e he
    rw [identAt_eq_some_iff, hident, hindex, Ident.indexOk_iff] at he
    obtain ⟨hcode, htap, hlfo⟩ := he
    have hcode_lt := e.code_lt
    omega

/-! ### Cue entries (R126) -/

/-- Settles O32: an entry and its request are one operation, and only the reply is the request's own. -/
theorem cueEntriesActAsRequests : Obligations.CueEntriesActAsRequests := by
  intro s f rest e c htake hrun hdomain hrow
  cases haction : e.action with
  | load =>
    rw [haction] at hrow
    obtain ⟨rfl, hkind, hbody⟩ := hrow
    have hslot : (slotOf e.slot).isSome = true := by simpa [CueEntry.domainOk, haction] using hdomain
    obtain ⟨k, hk⟩ := Option.isSome_iff_exists.1 hslot
    have hbyte : byteAt f.body 0 = instByte e.inst := by rw [hbody]; rfl
    have hslotAt : byteAt f.body 1 = e.slot := by rw [hbody]; rfl
    have howner : ownLoad f (s.takenInFlight rest) = answerInst f (applyEntry e (s.takenInFlight rest)) := by
      simp only [ownLoad, applyEntry, haction, hbyte, hslotAt, instOf_instByte, hk]
    refine ⟨instBody (byteAt f.body 0) (applyEntry e (s.takenInFlight rest)).2, ?_⟩
    rw [exec_load, serveKind_of_run htake hrun (by rw [hkind]; rfl) (by rw [hbody]; rfl) (by decide), howner]
    rfl
  | start =>
    rw [haction] at hrow
    obtain ⟨rfl, hkind, hbody⟩ := hrow
    simp only [applyEntry, haction]
    exact ⟨_, exec_start_of_run htake hrun hkind hbody⟩
  | stopSpill =>
    rw [haction] at hrow
    obtain ⟨rfl, hkind, hbody⟩ := hrow
    simp only [applyEntry, haction]
    exact ⟨_, exec_stopSpill_of_run htake hrun hkind hbody⟩
  | stopCut =>
    rw [haction] at hrow
    obtain ⟨rfl, hkind, hbody⟩ := hrow
    simp only [applyEntry, haction]
    exact ⟨_, exec_stopCut_of_run htake hrun hkind hbody⟩
  | hold =>
    rw [haction] at hrow
    obtain ⟨rfl, hkind, hbody⟩ := hrow
    simp only [applyEntry, haction]
    exact ⟨_, exec_hold_of_run htake hrun hkind hbody⟩
  | unhold =>
    rw [haction] at hrow
    obtain ⟨rfl, hkind, hbody⟩ := hrow
    simp only [applyEntry, haction]
    exact ⟨_, exec_unhold_of_run htake hrun hkind hbody⟩
  | set =>
    rw [haction] at hrow
    obtain ⟨rfl, hkind, hbody⟩ := hrow
    simp only [CueEntry.domainOk, haction] at hdomain
    cases hd : Ident.ofCode e.ident with
    | none => simp [hd] at hdomain
    | some d =>
      simp only [hd, Bool.and_eq_true] at hdomain
      have hbyte : byteAt f.body 0 = instByte e.inst := by rw [hbody]; rfl
      have hindex : u1At f.body 2 = e.index.toNat := by rw [hbody]; rfl
      have hident : identAt f.body 1 = some d := by
        rw [identAt_eq_some_iff, ← Ident.ofCode_eq_some_iff, hbody]
        exact ⟨hd, hdomain.1⟩
      have hvalue : setValueAt f.body 3 = e.value.toInt := by
        have hu : uAt 4 f.body 3 = e.value.toNat := by
          rw [hbody]
          exact (uAt_append_beBytes (k := 4) [instByte e.inst, e.ident, e.index] [] e.value.isLt)
        rw [setValueAt, hu, BitVec.ofNat_toNat, BitVec.setWidth_eq]
      rw [exec_set_of_run htake hrun hkind (by rw [hbody]; simp [beBytes_length]),
        ownSet_of_good hbyte hident (by rw [hvalue]; exact hdomain.2)]
      simp only [applyEntry, haction, hd, hindex, hvalue]
      split
      · exact ⟨_, rfl⟩
      · exact ⟨_, rfl⟩

end Sys2Proof.Machine
end

section
/-! SET and GET of every identifier (R62, R73, R74, R87 to R91): obligation O23. -/

namespace Sys2Proof.Machine

/-- The route that a value in its domain names, found among the ports. -/
theorem routeOf_eq_find {v : Int} (hv : 0 ≤ v) : routeOf v = (List.finRange 32).find? fun q : PortNo => decide ((q.val : Int) = v) := by
  cases hf : (List.finRange 32).find? fun q : PortNo => decide ((q.val : Int) = v) with
  | none =>
    rw [List.find?_eq_none] at hf
    refine dif_neg fun h => hf ⟨v.toNat, h⟩ (List.mem_finRange _) (decide_eq_true ?_)
    exact Int.toNat_of_nonneg hv
  | some q =>
    have hq : (q.val : Int) = v := by simpa using List.find?_some hf
    subst hq
    simp [routeOf]

/-- The increment of R62, written out. -/
theorem lfoIncrement_eq (rate : SampleRate) (v : Nat) :
    lfoIncrement rate v = (2 * (v * 2 ^ 32) + 1000 * rate.hz) / (2 * (1000 * rate.hz)) := rfl

section
variable {s : State} {f : Frame} {rest : List Frame} {i : InstNo} {b x : Byte} {d : Ident}

/-- The fields of a SET body. -/
theorem setBody_fields {v : Int} (hbody : f.body = instByte i :: b :: x :: beBytes 4 (BitVec.ofInt 32 v).toNat)
    (hlo : -2147483648 ≤ v) (hhi : v ≤ 2147483647) :
    byteAt f.body 0 = instByte i ∧ byteAt f.body 1 = b ∧ byteAt f.body 2 = x ∧ setValueAt f.body 3 = v ∧ f.body.length = 7 := by
  have hu : uAt 4 f.body 3 = (BitVec.ofInt 32 v).toNat := by
    rw [hbody]
    exact uAt_append_beBytes (k := 4) [instByte i, b, x] [] (BitVec.isLt _)
  refine ⟨by rw [hbody]; rfl, by rw [hbody]; rfl, by rw [hbody]; rfl, ?_, by rw [hbody]; simp [beBytes_length]⟩
  rw [setValueAt, hu, BitVec.ofNat_toNat, BitVec.setWidth_eq]
  exact BitVec.toInt_ofInt_eq_self (by decide) hlo (by omega)

theorem doSet_of_empty (h : (s.inst i).state = .empty) (k : Nat) (v : Int) : s.doSet i d k v = (.badState, s) := by
  simp [State.doSet, Inst.settable, h]

theorem Inst.settable_of_program {y : Inst} {p : Program} (hne : y.state ≠ .empty) (hp : y.program = some p) : y.settable = some p := by
  simp [Inst.settable, hne, hp]

theorem doSet_of_program {p : Program} (hne : (s.inst i).state ≠ .empty) (hp : (s.inst i).program = some p) (k : Nat) (v : Int) :
    s.doSet i d k v =
      if d.inProgram k p then
        (if d.clamp v = v then .ok else .clamped, s.modInst i (Inst.store s.clockRate d k (d.clamp v)))
      else (.badArg, s) := by
  simp only [State.doSet, Inst.settable_of_program hne hp]

theorem Ident.inProgram_iff {p : Program} {k : Nat} :
    d.inProgram k p = true ↔ (3 ≤ d.code ∧ d.code ≤ 9 → k < p.taps.length) := by
  rw [← Ident.ofTap_iff]
  simp [Ident.inProgram, imp_iff_not_or]

/-- SET in RUN, its fields in their domains (R73, R88). -/
theorem exec_set_of_good {v : Int} (htake : CanTake s f rest) (hrun : s.run.isSome = true) (hkind : f.kind = 0x26)
    (hbody : f.body = instByte i :: b :: x :: beBytes 4 (BitVec.ofInt 32 v).toNat) (hlo : -2147483648 ≤ v) (hhi : v ≤ 2147483647)
    (hcode : b.toNat = d.code) (hindex : d.indexOk x = true) (hvalue : d.valueOk v = true) :
    ((s.inst i).state = .empty → exec .set s = .next (s.repliedInst f rest .badState i)) ∧
    ∀ p, (s.inst i).state ≠ .empty → (s.inst i).program = some p →
      (d.inProgram x.toNat p = false → exec .set s = .next (s.repliedInst f rest .badArg i)) ∧
      (d.inProgram x.toNat p = true →
        exec .set s = .next (State.replied f rest (if d.clamp v = v then .ok else .clamped)
          ([instByte i, BitVec.ofNat 8 (s.inst i).state.code] ++ beBytes 4 (BitVec.ofInt 32 (d.clamp v)).toNat)
          (s.setInst i ((s.inst i).store s.clockRate d x.toNat (d.clamp v))))) := by
  obtain ⟨hbyte, hb, hx, hv, hlen⟩ := setBody_fields hbody hlo hhi
  have hident : identAt f.body 1 = some d := by
    rw [identAt_eq_some_iff, hb, hx]
    exact ⟨hcode, hindex⟩
  have hk : u1At f.body 2 = x.toNat := by rw [u1At, hx]
  have hexec : exec .set s = .next (
      let o := (s.takenInFlight rest).doSet i d x.toNat v
      if o.1 = .ok ∨ o.1 = .clamped then
        o.2.answer f o.1 (instBody (byteAt f.body 0) o.2 ++ s4 (d.clamp v))
      else answerInst f o) := by
    rw [exec_set_of_run htake hrun hkind hlen, ownSet_of_good hbyte hident (by rw [hv]; exact hvalue), hk, hv]
  rw [hexec]
  refine ⟨fun h => ?_, fun p hne hp => ⟨fun hprog => ?_, fun hprog => ?_⟩⟩
  · rw [doSet_of_empty (s := s.takenInFlight rest) h]
    exact congrArg Host.Outcome.next (answerInst_takenInFlight hbyte rest _ s)
  · rw [doSet_of_program (s := s.takenInFlight rest) hne hp, hprog]
    exact congrArg Host.Outcome.next (answerInst_takenInFlight hbyte rest _ s)
  · rw [doSet_of_program (s := s.takenInFlight rest) hne hp, hprog]
    have hstatus : (if d.clamp v = v then Status.ok else .clamped) = .ok ∨ (if d.clamp v = v then Status.ok else .clamped) = .clamped := by
      split
      · exact .inl rfl
      · exact .inr rfl
    simp only [if_true, hstatus, hbyte, instBody, instOf_instByte, u1_eq, s4, State.modInst_inst_self]
    rfl

/-- GET in RUN, its fields in their domains (R73, R91). -/
theorem exec_get_of_good (htake : CanTake s f rest) (hrun : s.run.isSome = true) (hkind : f.kind = 0x27)
    (hbody : f.body = [instByte i, b, x]) (hcode : b.toNat = d.code) (hindex : d.indexOk x = true) :
    ((s.inst i).state = .empty → exec .get s = .next (s.repliedInst f rest .badState i)) ∧
    ∀ p, (s.inst i).state ≠ .empty → (s.inst i).program = some p →
      (d.inProgram x.toNat p = false → exec .get s = .next (s.repliedInst f rest .badArg i)) ∧
      (d.inProgram x.toNat p = true →
        exec .get s = .next (s.replied f rest .ok
          ([instByte i, BitVec.ofNat 8 (s.inst i).state.code]
            ++ beBytes 4 (BitVec.ofInt 32 (storedValue d x.toNat p (s.inst i).routing)).toNat))) := by
  have hbyte : byteAt f.body 0 = instByte i := by rw [hbody]; rfl
  have hident : identAt f.body 1 = some d := by
    rw [identAt_eq_some_iff, hbody]
    exact ⟨hcode, hindex⟩
  have hk : u1At f.body 2 = x.toNat := by rw [hbody]; rfl
  have hexec : exec .get s = .next (
      match (s.inst i).settable with
      | none => answerInst f (.badState, s.takenInFlight rest)
      | some p =>
        if d.inProgram x.toNat p then
          (s.takenInFlight rest).answer f .ok
            (instBody (byteAt f.body 0) s ++ s4 (storedValue d x.toNat p (s.inst i).routing))
        else answerInst f (.badArg, s.takenInFlight rest)) := by
    rw [exec_get_of_run htake hrun hkind (by rw [hbody]; rfl)]
    simp only [ownGet, hbyte, instOf_instByte, hident, hk]
    rfl
  rw [hexec]
  refine ⟨fun h => ?_, fun p hne hp => ⟨fun hprog => ?_, fun hprog => ?_⟩⟩
  · simp only [Inst.settable, h, if_true]
    exact congrArg Host.Outcome.next (answerInst_takenInFlight hbyte rest _ s)
  · simp only [Inst.settable_of_program hne hp, hprog, if_false, Bool.false_eq_true]
    exact congrArg Host.Outcome.next (answerInst_takenInFlight hbyte rest _ s)
  · simp only [Inst.settable_of_program hne hp, hprog, if_true, instBody, hbyte, instOf_instByte, u1_eq, s4]
    rfl

end

/-- What SET stores beside an LFO rate: a field of the program or of the routing. -/
theorem Inst.store_of_ne {d : Ident} {y : Inst} {p : Program} (hne : d ≠ .lfoRate) (hp : y.program = some p) (rate : SampleRate) (k : Nat)
    (v : Int) : y.store rate d k v = { y with program := some (p.store d k v), routing := y.routing.store d v } := by
  have hrun : Running.store rate d k v = id := funext (Running.store_of_ne hne rate k v)
  simp [Inst.store, hrun, hp]

theorem Program.tapAt_of_getElem? {p : Program} {k : Nat} {t : TapProg} (h : p.taps[k]? = some t) : p.tapAt k = t := by
  simp [Program.tapAt, List.getD_eq_getElem?_getD, h]

/-- Settles O23: the row of the identifier that has the code, and for it the one field stored or read. -/
theorem setAndGet : Obligations.SetAndGet := by
  intro s f rest i b x htake hrun hb htapIndex hlfoIndex ranges k tap
  obtain ⟨d, hd⟩ : ∃ d, Ident.table[b.toNat]? = some d := ⟨_, List.getElem?_eq_getElem hb⟩
  have hcode : b.toNat = d.code := Ident.table_eq_some_iff.1 hd
  have hindex : d.indexOk x = true := by
    rw [Ident.indexOk_iff, ← hcode]
    exact ⟨fun h1 h2 => htapIndex ⟨h1, h2⟩, fun h1 h2 => hlfoIndex ⟨h1, h2⟩⟩
  have hprogram (p : Program) : d.inProgram k p = true ↔ (tap → k < p.taps.length) := by
    rw [Ident.inProgram_iff, ← hcode]
  have hprogram' (p : Program) (ht : tap) (hk : p.taps.length ≤ k) : d.inProgram k p = false := by
    rw [← Bool.not_eq_true, hprogram]
    exact fun h => Nat.not_lt.2 hk (h ht)
  refine ⟨fun v lo hi hkind hbody hvlo hvhi hrange hcode1 hcode2 hroute => ?_, fun hkind hbody => ?_⟩
  · have hranges : ranges = Ident.table.map Ident.range := rfl
    have hr : d.range = (lo, hi) := by
      rw [hranges, List.getElem?_map, hd] at hrange
      exact Option.some.inj hrange
    have h4 : b = 4 ↔ d.code = 4 := by rw [← hcode]; exact BitVec.toNat_inj.symm
    have h11 : b = 11 ↔ d.code = 11 := by rw [← hcode]; exact BitVec.toNat_inj.symm
    have h7 : b = 7 ↔ d.code = 7 := by rw [← hcode]; exact BitVec.toNat_inj.symm
    have hvalue : d.valueOk v = true := by
      rw [Ident.valueOk_iff_code, ← h4, ← h11, ← h7, ← hcode]
      exact ⟨hcode1, hcode2, hroute⟩
    have hclamp : d.clamp v = max lo (min hi v) := by
      have hle : lo ≤ hi := by
        have := d.clamp_mem v
        rw [hr] at this
        exact this.1.trans this.2
      rw [Ident.clamp, hr]
      exact clampInt_eq_max_min hle v
    obtain ⟨hempty, hset⟩ := exec_set_of_good htake hrun hkind hbody hvlo hvhi hcode hindex hvalue
    refine ⟨hempty, fun p hne hp => ⟨fun ht hk => (hset p hne hp).1 (hprogram' p ht hk), fun ht => ?_⟩⟩
    intro w y prog onTap onLfo port inc stored
    have hw : d.clamp v = w := hclamp
    have hexec := (hset p hne hp).2 ((hprogram p).2 ht)
    rw [hw] at hexec
    have hport : 16 ≤ d.code → routeOf w = port := fun h => by
      refine routeOf_eq_find ?_
      have hmem := (d.clamp_mem v).1
      rw [hw] at hmem
      refine le_trans ?_ hmem
      cases d <;> simp [Ident.code] at h <;> decide
    have hstored : y.store s.clockRate d k w = stored := by
      have hy : y.program = some p := hp
      simp only [stored, hcode]
      by_cases hne : d = .lfoRate
      · subst hne
        simp only [Inst.store, hy, Option.map_some, Program.store, Program.modLfo, Routing.store]
        rfl
      · rw [Inst.store_of_ne hne hy]
        cases d with
        | routeInA | routeInB | routeOutA | routeOutB =>
          rw [← hport (by decide)]
          simp only [Program.store, ← hy]
          rfl
        | lfoRate => exact absurd rfl hne
        | _ => rfl
    rw [← hstored]
    exact hexec
  · obtain ⟨hempty, hget⟩ := exec_get_of_good htake hrun hkind hbody hcode hindex
    refine ⟨hempty, fun p hne hp => ⟨fun ht hk => (hget p hne hp).1 (hprogram' p ht hk), fun v hv => ?_⟩⟩
    have htaps (g : TapProg → Int) (h : p.taps[k]?.map g = some v) : g (p.tapAt k) = v := by
      obtain ⟨t, ht, hg⟩ := Option.map_eq_some_iff.1 h
      rw [Program.tapAt_of_getElem? ht, hg]
    have hlfo : p.lfoAt k = if k = 0 then p.lfo0 else p.lfo1 := rfl
    have hvalue : storedValue d k p (s.inst i).routing = v := by
      simp only [hcode] at hv
      cases d with
      | inGain | outGain | glide | tailFloor | tailQuiet | spillLimit => exact hv.symm
      | tapGain | tapFixed | tapTicks | tapDepth | tapDamp => exact htaps _ hv
      | tapSource =>
        refine Eq.trans ?_ (htaps _ hv)
        cases h : (p.tapAt k).source <;> simp [storedValue, h, Source.code]
      | tapLfo =>
        refine Eq.trans ?_ (htaps _ hv)
        cases h : (p.tapAt k).lfo <;> simp [storedValue, h, LfoSel.code]
      | lfoRate | lfoPhase => exact hv.symm
      | lfoShape =>
        refine Eq.trans ?_ hv.symm
        rw [storedValue, hlfo]
        cases h : (if k = 0 then p.lfo0 else p.lfo1).shape <;> simp [Shape.code]
      | routeInA | routeInB | routeOutA | routeOutB =>
        refine Eq.trans ?_ hv.symm
        unfold storedValue routeValue
        dsimp only
        split <;> simp [*]
    have hin : d.inProgram k p = true := by
      rw [hprogram]
      intro ht
      by_contra hk
      have hnone : p.taps[k]? = none := List.getElem?_eq_none (Nat.not_lt.1 hk)
      simp only [tap, hcode] at ht hv
      cases d with
      | tapGain | tapFixed | tapTicks | tapDepth | tapDamp | tapSource | tapLfo => simp [Ident.code, hnone] at hv
      | _ => simp [Ident.code] at ht
    rw [← hvalue]
    exact (hget p hne hp).2 hin

end Sys2Proof.Machine
end

section
/-! Conditions and the window end (R110 to R112, R196, R197): obligations O41 and O52. -/

namespace Sys2Proof.Machine

/-! ### Conditions -/

section
variable (n : Notices) (c : Condition)

theorem Notices.raise_of_enabled (h : (n.config c.group).enabled = true) : n.raise c = n.latch c := if_pos h

theorem Notices.raise_of_disabled (h : (n.config c.group).enabled = false) : n.raise c = n :=
  if_neg (by rw [h]; exact Bool.false_ne_true)

theorem Notices.latch_config (g : Group) : (n.latch c).config g = n.config g := by
  cases c <;> rfl

/-- Whatever holds of a state before and after a latch holds after a raise. -/
theorem Notices.raise_cases : n.raise c = n ∨ n.raise c = n.latch c := by
  cases h : (n.config c.group).enabled with
  | false => exact .inl (n.raise_of_disabled c h)
  | true => exact .inr (n.raise_of_enabled c h)

theorem Notices.latch_flags_of_ne {g : Group} (h : g ≠ c.group) : (n.latch c).flags g = n.flags g := by
  cases c with
  | holdover | lockRestored | outClip =>
    cases g with
    | port => exact absurd rfl h
    | _ => rfl
  | corrected | uncorrectable | dropped =>
    cases g with
    | memory => exact absurd rfl h
    | _ => rfl
  | released | stolen | startFailed | admitted | clipped | limit =>
    cases g with
    | inst => exact absurd rfl h
    | _ => rfl
  | applied =>
    cases g with
    | cue => exact absurd rfl h
    | _ => rfl
  | tapTempo =>
    cases g with
    | tempo => exact absurd rfl h
    | _ => rfl
  | overrun | badFrame =>
    cases g with
    | link => exact absurd rfl h
    | _ => rfl

theorem instBit_ne_zero : ∀ i : InstNo, instBit i ≠ 0 := by decide

theorem instBit_eq_shiftLeft : ∀ i : InstNo, instBit i = 1#24 <<< i.val := by decide

theorem Notices.latch_pending (h : c ≠ .outClip 0) : (n.latch c).pending c.group = true := by
  cases c with
  | outClip m =>
    have hm : m ≠ 0 := fun h0 => h (by rw [h0])
    simp_all [Notices.pending, Notices.flags, Notices.latch, Condition.group]
  | released i | stolen i | startFailed i | admitted i | clipped i | limit i =>
    have hbit : instBit i ≠ 0 := instBit_ne_zero i
    simp_all [Notices.pending, Notices.flags, Notices.latch, Condition.group]
  | _ => simp [Notices.pending, Notices.flags, Notices.latch, Condition.group]

end

/-- Settles O41: a raise is a latch or nothing, and a latch reaches its own group alone. -/
theorem conditionsLatch : Obligations.ConditionsLatch := by
  intro n c
  refine ⟨n.raise_of_disabled c, fun h => ?_, fun g => ?_, ?_, fun h hne => ?_, fun g hg => ?_⟩
  · rw [n.raise_of_enabled c h]
    cases c with
    | released i | stolen i | startFailed i | admitted i | clipped i | limit i => simp only [Notices.latch, instBit_eq_shiftLeft]
    | _ => rfl
  · obtain h | h := n.raise_cases c
    · rw [h]
    · rw [h, n.latch_config c]
  · cases c <;> rfl
  · rw [n.raise_of_enabled c h]
    exact n.latch_pending c hne
  · obtain h | h := n.raise_cases c
    · rw [h]
    · rw [h, n.latch_flags_of_ne c hg]

/-! ### The window end -/

/-- An instance put back as it was changes nothing. -/
@[simp] theorem State.setInst_self (s : State) (i : InstNo) : s.setInst i (s.inst i) = s := by
  simp only [State.setInst, State.inst, Vector.set_getElem_self]

theorem exec_windowEnd (s : State) (i : InstNo) : exec (.windowEnd i) s = .next (s.setInst i (s.inst i).closeWindow) := rfl

theorem Inst.windowEnd_of_spilling {x : Inst} {r : Running} {p : Program} (hrun : x.running = some r) (hstate : x.state = .spilling)
    (hp : x.program = some p) : x.windowEnd = spillDecision p (levelCode r.windowPeak) (x.leveled r) := by
  obtain ⟨q, -, hq, h⟩ | ⟨-, hno⟩ := Inst.windowEnd_cases hrun
  · rw [h, Option.some.inj (hp.symm.trans hq)]
  · exact absurd ⟨hstate, by rw [hp]; rfl⟩ hno

/-- Settles O52: a window that is not complete is left, and a complete one is ended. -/
theorem windowEndJudgesTheTail : Obligations.WindowEndJudgesTheTail := by
  intro s i
  have hopen (h : ∀ r, (s.inst i).running = some r → r.windowProgress < 256) : exec (.windowEnd i) s = .next s := by
    rw [exec_windowEnd, Inst.closeWindow_of_lt h, State.setInst_self]
  refine ⟨fun hnone => hopen fun r hr => absurd (hnone.symm.trans hr) nofun, fun y p hy hp => ⟨fun hlt => ?_, fun hge => ?_⟩⟩
  · exact hopen fun r hr => Option.some.inj (hy.symm.trans hr) ▸ hlt
  · intro x level q n ended
    rw [exec_windowEnd, Inst.closeWindow_of_complete hy hge]
    refine ⟨fun hstate => ?_, fun hstate => ?_⟩
    · rw [Inst.windowEnd_of_not_spilling hy hstate]
      rfl
    · rw [Inst.windowEnd_of_spilling hy hstate hp]
      rfl

end Sys2Proof.Machine
end

section
/-! The frame clock monitor edge by edge (R174 to R179): obligation O44. -/

namespace Sys2Proof.Machine

theorem goodPeriod_iff {rate : SampleRate} {p : Nat} : goodPeriod rate p = true ↔ rate.goodLow ≤ p ∧ p ≤ rate.goodHigh := by
  simp [goodPeriod]

section
variable {s : State}

theorem State.holdoverCheck_of_four (hlock : s.monitor.lock = .locked) (hbad : s.monitor.bad = 4) :
    s.holdoverCheck = State.raise .holdover { s with monitor := { s.monitor with lock := .free, good := 0, bad := 0 } } :=
  if_pos ⟨hlock, hbad⟩

theorem State.holdoverCheck_of_not (h : s.monitor.lock = .free ∨ s.monitor.bad ≠ 4) : s.holdoverCheck = s :=
  if_neg fun ⟨hlock, hbad⟩ => h.elim (fun hf => absurd (hlock.symm.trans hf) nofun) (absurd hbad)

theorem State.lockCheck_of_sixteen (hlock : s.monitor.lock = .free) (hgood : s.monitor.good = 16) :
    s.lockCheck = State.raise .lockRestored { s with monitor := { s.monitor with lock := .locked, good := 0, bad := 0 } } :=
  if_pos ⟨hlock, hgood⟩

theorem State.lockCheck_of_not (h : s.monitor.lock = .locked ∨ s.monitor.good ≠ 16) : s.lockCheck = s :=
  if_neg fun ⟨hlock, hgood⟩ => h.elim (fun hf => absurd (hlock.symm.trans hf) nofun) (absurd hgood)

theorem State.frame_of_wordsExist (h : s.wordsExist = true) (inputs : Vector Int 32) (env : FrameEnv) :
    s.frame inputs env = .next (s.frameStart inputs env) := if_pos h

/-! ### The first edge, and what no edge does -/

variable {env : FrameEnv} {d q : Nat} {lanes : InputLanes}

theorem exec_afsEdge_of_unmarked (hpin : s.resetPin = false) (hmark : s.monitor.sinceMark = none) :
    exec (.afsEdge d lanes env) s =
      .next { s with monitor := { s.monitor with sinceMark := some 0, sinceFrame := s.monitor.sinceFrame + d } } := by
  show execAfsEdge d lanes env s = _
  refine (if_neg (by rw [hpin]; exact Bool.false_ne_true)).trans ?_
  simp only [State.modMonitor_monitor, Monitor.pass_sinceMark, hmark]
  rfl

theorem exec_edgeWatchExpiry_of_unmarked (hpin : s.resetPin = false) (hmark : s.monitor.sinceMark = none) :
    exec (.edgeWatchExpiry env) s = .next s := by
  show execEdgeWatchExpiry env s = _
  refine (if_neg (by rw [hpin]; exact Bool.false_ne_true)).trans ?_
  simp only [hmark]

/-! ### An edge while LOCKED -/

theorem exec_afsEdge_of_locked (hpin : s.resetPin = false) (hmark : s.monitor.sinceMark = some q) (hlock : s.monitor.lock = .locked) :
    exec (.afsEdge d lanes env) s = State.lockedEdge (q + d) lanes env (s.modMonitor (Monitor.pass d)) := by
  show execAfsEdge d lanes env s = _
  refine (if_neg (by rw [hpin]; exact Bool.false_ne_true)).trans ?_
  simp only [State.modMonitor_monitor, Monitor.pass_sinceMark, hmark, hlock]
  rfl

theorem exec_afsEdge_of_locked_of_good (hpin : s.resetPin = false) (hwords : s.wordsExist = true)
    (hmark : s.monitor.sinceMark = some q) (hlock : s.monitor.lock = .locked) (hgood : goodPeriod s.clockRate (q + d) = true) :
    exec (.afsEdge d lanes env) s = .next (State.frameStart (laneSamples lanes) env
      (s.modMonitor fun m => (m.pass d).countGood.markNow.frameNow)) := by
  rw [exec_afsEdge_of_locked hpin hmark hlock]
  refine (if_pos hgood).trans (State.frame_of_wordsExist ?_ _ _)
  exact hwords

theorem exec_afsEdge_of_locked_of_bad (hpin : s.resetPin = false) (hmark : s.monitor.sinceMark = some q)
    (hlock : s.monitor.lock = .locked) (hbad : ¬ goodPeriod s.clockRate (q + d) = true) :
    exec (.afsEdge d lanes env) s = .next (s.modMonitor fun m => (m.pass d).countBad).holdoverCheck := by
  rw [exec_afsEdge_of_locked hpin hmark hlock]
  exact if_neg hbad

/-! ### An edge while FREE -/

theorem exec_afsEdge_of_free (hpin : s.resetPin = false) (hmark : s.monitor.sinceMark = some q) (hlock : s.monitor.lock = .free) :
    exec (.afsEdge d lanes env) s = .next (s.modMonitor fun m =>
      (if goodPeriod s.clockRate (q + d) then (m.pass d).countGood else (m.pass d).countBad).markNow).lockCheck := by
  show execAfsEdge d lanes env s = _
  refine (if_neg (by rw [hpin]; exact Bool.false_ne_true)).trans ?_
  simp only [State.modMonitor_monitor, Monitor.pass_sinceMark, hmark, hlock]
  rfl

theorem exec_afsEdge_of_free_of_good (hpin : s.resetPin = false) (hmark : s.monitor.sinceMark = some q) (hlock : s.monitor.lock = .free)
    (hgood : goodPeriod s.clockRate (q + d) = true) :
    exec (.afsEdge d lanes env) s = .next (s.modMonitor fun m => (m.pass d).countGood.markNow).lockCheck := by
  rw [exec_afsEdge_of_free hpin hmark hlock]
  simp only [hgood, if_true]

theorem exec_afsEdge_of_free_of_bad (hpin : s.resetPin = false) (hmark : s.monitor.sinceMark = some q) (hlock : s.monitor.lock = .free)
    (hbad : ¬ goodPeriod s.clockRate (q + d) = true) :
    exec (.afsEdge d lanes env) s = .next (s.modMonitor fun m => (m.pass d).countBad.markNow).lockCheck := by
  rw [exec_afsEdge_of_free hpin hmark hlock]
  simp only [if_neg hbad]

/-! ### The edge watch and the internal timer -/

theorem exec_edgeWatchExpiry_of_locked (hpin : s.resetPin = false) (hwords : s.wordsExist = true) (hmark : s.monitor.sinceMark = some q)
    (hlock : s.monitor.lock = .locked) :
    exec (.edgeWatchExpiry env) s = .next (State.frameStart silence env
      ((s.modMonitor fun m => ((m.pass (ticksLeft s.clockRate.watch q)).countBad).markNow).holdoverCheck.modMonitor
        Monitor.frameNow)) := by
  show execEdgeWatchExpiry env s = _
  refine (if_neg (by rw [hpin]; exact Bool.false_ne_true)).trans ?_
  simp only [hmark, hlock]
  refine State.frame_of_wordsExist ?_ _ _
  obtain ⟨hrun, hinst, hq⟩ := holdoverCheck_keeps
    (s.modMonitor fun m => ((m.pass (ticksLeft s.clockRate.watch q)).countBad).markNow)
  exact (State.wordsExist_congr (s := s) hrun hinst hq).trans hwords

theorem exec_edgeWatchExpiry_of_free (hpin : s.resetPin = false) (hmark : s.monitor.sinceMark = some q)
    (hlock : s.monitor.lock = .free) :
    exec (.edgeWatchExpiry env) s =
      .next (s.modMonitor fun m => ((m.pass (ticksLeft s.clockRate.watch q)).countBad).markNow) := by
  show execEdgeWatchExpiry env s = _
  refine (if_neg (by rw [hpin]; exact Bool.false_ne_true)).trans ?_
  simp only [hmark, hlock]

theorem exec_internalFrameTimer_of_locked (hlock : s.monitor.lock = .locked) : exec (.internalFrameTimer env) s = .next s := by
  show execInternalFrameTimer env s = _
  simp only [execInternalFrameTimer, hlock, ite_self]

theorem exec_internalFrameTimer_of_free (hpin : s.resetPin = false) (hwords : s.wordsExist = true) (hlock : s.monitor.lock = .free) :
    exec (.internalFrameTimer env) s = .next (State.frameStart silence env
      (s.modMonitor fun m => (m.pass (ticksLeft s.clockRate.nominal m.sinceFrame)).frameNow)) := by
  show execInternalFrameTimer env s = _
  refine (if_neg (by rw [hpin]; exact Bool.false_ne_true)).trans ?_
  simp only [hlock]
  refine State.frame_of_wordsExist ?_ _ _
  exact hwords

end

/-- The top 24 bits of a slot, where they stand in their lane frame. -/
theorem extractLsb'_laneSlot {j : Nat} (hj : j < 16) (x : LaneFrame) :
    (laneSlot x j).extractLsb' 8 24 = BitVec.extractLsb' (512 - 32 * j - 24) 24 x := by
  apply BitVec.eq_of_getLsbD_eq
  intro b hb
  have hpos : 480 - 32 * j + (8 + b) = 512 - 32 * j - 24 + b := by omega
  simp only [laneSlot, BitVec.getLsbD_extractLsb', hb, decide_true, Bool.true_and, (by omega : 8 + b < 32), hpos]

/-- The samples of the lanes by the bits of the two frames (R169). -/
theorem laneSamples_eq (lanes : InputLanes) :
    laneSamples lanes = Vector.ofFn fun k : PortNo =>
      (BitVec.extractLsb' (512 - 32 * (k.val % 16) - 24) 24 (if k.val < 16 then lanes.ain0 else lanes.ain1)).toInt := by
  refine congrArg Vector.ofFn (funext fun k => ?_)
  exact congrArg BitVec.toInt (extractLsb'_laneSlot (Nat.mod_lt _ (by decide)) _)

/-- Settles O44: each row of the monitor's table by the lock, the period and the count it meets. -/
theorem frameClockFollowsTheEdges : Obligations.FrameClockFollowsTheEdges := by
  refine ⟨fun s env d lanes hpin hinv hwords => ?_, fun s => ⟨fun hlock hbad => ?_, fun h => ?_, fun hlock hgood => ?_, fun h => ?_, fun hinv => ?_⟩⟩
  · intro m inputs silent
    have hinputs : laneSamples lanes = inputs := laneSamples_eq lanes
    refine ⟨fun hmark => ⟨exec_afsEdge_of_unmarked hpin hmark, exec_edgeWatchExpiry_of_unmarked hpin hmark⟩, fun q hmark => ?_,
      exec_internalFrameTimer_of_locked, exec_internalFrameTimer_of_free hpin hwords⟩
    intro m1 good
    have hgood : goodPeriod s.clockRate (q + d) = true ↔ good := goodPeriod_iff
    have hinv := (monitorInv_iff s).1 hinv
    refine ⟨fun hlock h => ?_, fun hlock h hbad => ?_, fun hlock h hbad => ?_, fun hlock h hcount => ?_, fun hlock h hcount => ?_,
      fun hlock h => ?_, fun hlock hbad => ?_, fun hlock hbad => ?_, fun hlock => ?_⟩
    · rw [exec_afsEdge_of_locked_of_good hpin hwords hmark hlock (hgood.2 h), hinputs]
      rfl
    · have hbads : min (m.bad + 1) 4 = m.bad + 1 := by omega
      rw [exec_afsEdge_of_locked_of_bad hpin hmark hlock (mt hgood.1 h), State.holdoverCheck_of_not (.inr ?_)]
      · simp only [State.modMonitor, Monitor.countBad, Monitor.pass, hbads, m1, m, hmark]
        rfl
      · show min (m.bad + 1) 4 ≠ 4
        omega
    · rw [exec_afsEdge_of_locked_of_bad hpin hmark hlock (mt hgood.1 h), State.holdoverCheck_of_four ?_ ?_]
      · simp only [State.modMonitor, Monitor.countBad, Monitor.pass, m1, m, hmark]
        rfl
      · exact hlock
      · show min (m.bad + 1) 4 = 4
        omega
    · have hcounts : min (m.good + 1) 16 = m.good + 1 := by omega
      rw [exec_afsEdge_of_free_of_good hpin hmark hlock (hgood.2 h), State.lockCheck_of_not (.inr ?_)]
      · simp only [State.modMonitor, Monitor.countGood, Monitor.markNow, Monitor.pass, hcounts, m1, m]
      · show min (m.good + 1) 16 ≠ 16
        omega
    · rw [exec_afsEdge_of_free_of_good hpin hmark hlock (hgood.2 h), State.lockCheck_of_sixteen ?_ ?_]
      · rfl
      · exact hlock
      · show min (m.good + 1) 16 = 16
        omega
    · rw [exec_afsEdge_of_free_of_bad hpin hmark hlock (mt hgood.1 h), State.lockCheck_of_not (.inr ?_)]
      · rfl
      · show (0 : Nat) ≠ 16
        decide
    · have hbads : min (m.bad + 1) 4 = m.bad + 1 := by omega
      rw [exec_edgeWatchExpiry_of_locked hpin hwords hmark hlock, State.holdoverCheck_of_not (.inr ?_)]
      · simp only [State.modMonitor, Monitor.countBad, Monitor.markNow, Monitor.frameNow, Monitor.pass, hbads, m]
        rfl
      · show min (m.bad + 1) 4 ≠ 4
        omega
    · rw [exec_edgeWatchExpiry_of_locked hpin hwords hmark hlock, State.holdoverCheck_of_four ?_ ?_]
      · rfl
      · exact hlock
      · show min (m.bad + 1) 4 = 4
        omega
    · rw [exec_edgeWatchExpiry_of_free hpin hmark hlock]
      rfl
  · exact congrArg Host.Outcome.next (State.holdoverCheck_of_four hlock hbad)
  · exact congrArg Host.Outcome.next (State.holdoverCheck_of_not h)
  · exact congrArg Host.Outcome.next (State.lockCheck_of_sixteen hlock hgood)
  · exact congrArg Host.Outcome.next (State.lockCheck_of_not h)
  · rw [monitorInv_iff] at hinv
    constructor
    · refine congrArg Host.Outcome.next (State.holdoverCheck_of_not ?_)
      cases hl : s.monitor.lock with
      | free => exact .inl rfl
      | locked => exact .inr (by have := hinv.1 hl; omega)
    · refine congrArg Host.Outcome.next (State.lockCheck_of_not ?_)
      cases hl : s.monitor.lock with
      | locked => exact .inl rfl
      | free => exact .inr (by have := hinv.2 hl; omega)

end Sys2Proof.Machine
end

section
/-! The tempo requests and MEM_ERRORS (R50 to R52, R158): obligations O33 and O38. -/

namespace Sys2Proof.Machine

/-! ### The tempo requests -/

section
variable {s : State} {f : Frame} {rest : List Frame}

theorem exec_tempoSet (s : State) : exec .tempoSet s = .next (serveKind .tempoSet ownTempoSet s) := rfl
theorem exec_tempoGet (s : State) : exec .tempoGet s = .next (serveKind .tempoGet ownTempoGet s) := rfl
theorem exec_tapMode (s : State) : exec .tapMode s = .next (serveKind .tapMode ownTapMode s) := rfl

theorem clampTempo_eq_self_iff {v : Nat} : clampTempo v = v ↔ 3000 ≤ v ∧ v ≤ 30000 := by
  unfold clampTempo
  omega

theorem uAt_two_bytes (a b : Byte) : uAt 2 [a, b] 0 = a.toNat * 256 + b.toNat := by
  simp [uAt, beVal]

theorem exec_tempoSet_of_bytes {a b : Byte} (htake : CanTake s f rest) (hkind : f.kind = 0x40) (hbody : f.body = [a, b]) :
    exec .tempoSet s = .next (State.replied f rest
      (if clampTempo (a.toNat * 256 + b.toNat) = a.toNat * 256 + b.toNat then .ok else .clamped)
      (u2 (clampTempo (a.toNat * 256 + b.toNat)))
      { s with tempo := { s.tempo with tempo := clampTempo (a.toNat * 256 + b.toNat) } }) := by
  rw [exec_tempoSet, serveKind_of_servedInSetup htake (by rw [hkind]; rfl) (by rw [hbody]; rfl) rfl (by decide), ownTempoSet, hbody,
    uAt_two_bytes]
  rfl

/-- A list read at the first n places, with a default beyond its end. -/
theorem flatMap_range_getD {α β : Type} (g : α → List β) (d : α) :
    ∀ (n : Nat) (l : List α), l.length ≤ n →
      (List.range n).flatMap (fun k => g (l.getD k d)) = l.flatMap g ++ (List.replicate (n - l.length) (g d)).flatten
  | 0, l, h => by simp [List.length_eq_zero_iff.1 (Nat.le_zero.1 h)]
  | n + 1, [], _ => by simp [List.flatMap_def, List.map_const']
  | n + 1, x :: l, h => by
    have ih := flatMap_range_getD g d n l (Nat.le_of_succ_le_succ h)
    simp only [List.range_succ_eq_map, List.flatMap_cons, List.flatMap_map, List.getD_cons_zero, List.getD_cons_succ, ih,
      List.append_assoc, List.length_cons, Nat.add_sub_add_right]

theorem exec_tempoGet_of_canTake (htake : CanTake s f rest) (hkind : f.kind = 0x41) (hbody : f.body = []) :
    exec .tempoGet s = .next (s.replied f rest .ok (tempoGetBody s.tempo)) := by
  rw [exec_tempoGet, serveKind_of_servedInSetup htake (by rw [hkind]; rfl) (by rw [hbody]; rfl) rfl (by decide)]
  rfl

theorem tempoGetBody_of_le {t : Tempo} (h : t.intervals.length ≤ 4) :
    tempoGetBody t = beBytes 2 t.tempo ++ boolByte t.tapMode ++ [BitVec.ofNat 8 t.intervals.length]
      ++ t.intervals.flatMap (beBytes 4) ++ List.replicate (4 * (4 - t.intervals.length)) 0
      ++ boolByte t.lastTap.isSome ++ beBytes 4 (t.lastTap.getD 0) := by
  have hzero : u4 0 = List.replicate 4 (0 : Byte) := rfl
  have hlist := flatMap_range_getD u4 0 4 t.intervals h
  rw [hzero, List.flatten_replicate_replicate, Nat.mul_comm] at hlist
  rw [tempoGetBody, hlist, u1_eq]
  simp only [List.append_assoc]
  rfl

theorem exec_tapMode_of_byte {m : Byte} (htake : CanTake s f rest) (hkind : f.kind = 0x42) (hbody : f.body = [m]) :
    exec .tapMode s = .next (ownTapMode f (s.takenInFlight rest)) := by
  rw [exec_tapMode, serveKind_of_servedInSetup htake (by rw [hkind]; rfl) (by rw [hbody]; rfl) rfl (by decide)]

theorem Tempo.setMode_of_eq {t : Tempo} {on : Bool} (h : t.tapMode = on) : t.setMode on = t := if_pos h

theorem Tempo.setMode_of_ne {t : Tempo} {on : Bool} (h : t.tapMode ≠ on) :
    t.setMode on = { t with tapMode := on, intervals := [], lastTap := none } := if_neg h

/-- A code byte of two that are allowed. -/
theorem byte_cases (m : Byte) : m = 0 ∨ m = 1 ∨ 2 ≤ m.toNat := by
  by_cases h : 2 ≤ m.toNat
  · exact .inr (.inr h)
  · have hlt : m.toNat = 0 ∨ m.toNat = 1 := by omega
    exact hlt.imp BitVec.eq_of_toNat_eq fun h1 => .inl (BitVec.eq_of_toNat_eq h1)

theorem ownTapMode_of_zero (hbody : f.body = [0]) :
    ownTapMode f (s.takenInFlight rest) = State.replied f rest .ok [0] { s with tempo := s.tempo.setMode false } := by
  have hm : u1At f.body 0 = 0 := by rw [hbody]; rfl
  unfold ownTapMode
  rw [hm]
  rfl

theorem ownTapMode_of_one (hbody : f.body = [1]) :
    ownTapMode f (s.takenInFlight rest) = State.replied f rest .ok [1] { s with tempo := s.tempo.setMode true } := by
  have hm : u1At f.body 0 = 1 := by rw [hbody]; rfl
  unfold ownTapMode
  rw [hm]
  rfl

theorem ownTapMode_of_bad {m : Byte} (hbody : f.body = [m]) (h : 2 ≤ m.toNat) (t : State) : ownTapMode f t = t.answer f .badArg [] := by
  have hm : u1At f.body 0 = m.toNat := by rw [hbody]; rfl
  unfold ownTapMode
  rw [hm]
  split
  · omega
  · omega
  · rfl

end

/-- Settles O33: each request by its fields. -/
theorem tempoRequests : Obligations.TempoRequests := by
  intro s f rest htake
  refine ⟨fun a b hkind hbody => ?_, fun hkind hbody hlen => ?_, fun m hkind hbody => ?_⟩
  · intro v w
    have hw : clampTempo v = w := clampTempo_eq_max_min v
    rw [exec_tempoSet_of_bytes htake hkind hbody]
    simp only [v, w, ← clampTempo_eq_self_iff, ← clampTempo_eq_max_min]
    rfl
  · rw [exec_tempoGet_of_canTake htake hkind hbody, tempoGetBody_of_le hlen]
  · rw [exec_tapMode_of_byte htake hkind hbody]
    refine ⟨fun h => ?_, fun h0 hmode => ?_, fun h1 hmode => ?_, fun h0 hmode => ?_, fun h1 hmode => ?_⟩
    · rw [ownTapMode_of_bad hbody h]
      rfl
    · rw [ownTapMode_of_zero (by rw [hbody, h0]), Tempo.setMode_of_eq hmode]
    · rw [ownTapMode_of_one (by rw [hbody, h1]), Tempo.setMode_of_eq hmode]
    · rw [ownTapMode_of_zero (by rw [hbody, h0]), Tempo.setMode_of_ne (by rw [hmode]; decide)]
    · rw [ownTapMode_of_one (by rw [hbody, h1]), Tempo.setMode_of_ne (by rw [hmode]; decide)]

/-! ### MEM_ERRORS -/

section
variable {s : State} {f : Frame} {rest : List Frame} {m : Byte}

theorem exec_memErrors (s : State) : exec .memErrors s = .next (serveKind .memErrors ownMemErrors s) := rfl

theorem exec_memErrors_of_setup (htake : CanTake s f rest) (hkind : f.kind = 0x50) (hbody : f.body = [m]) (hrun : s.run = none) :
    exec .memErrors s = .next (s.replied f rest .notReady []) := by
  rw [exec_memErrors, serveKind_of_setup htake hrun (by rw [hkind]; rfl) (by rw [hbody]; rfl) rfl (by decide)]

theorem exec_memErrors_of_run (htake : CanTake s f rest) (hkind : f.kind = 0x50) (hbody : f.body = [m]) (hrun : s.run.isSome = true) :
    exec .memErrors s = .next (ownMemErrors f (s.takenInFlight rest)) := by
  rw [exec_memErrors, serveKind_of_run htake hrun (by rw [hkind]; rfl) (by rw [hbody]; rfl) (by decide)]

theorem ownMemErrors_of_keep (hbody : f.body = [0]) :
    ownMemErrors f (s.takenInFlight rest) = s.replied f rest .ok (memErrorsBody s) := by
  have hm : u1At f.body 0 = 0 := by rw [hbody]; rfl
  unfold ownMemErrors
  rw [hm]
  rfl

theorem ownMemErrors_of_clear (hbody : f.body = [1]) :
    ownMemErrors f (s.takenInFlight rest) = State.replied f rest .ok (memErrorsBody s) { s with errors := ErrorRecord.reset } := by
  have hm : u1At f.body 0 = 1 := by rw [hbody]; rfl
  unfold ownMemErrors
  rw [hm]
  rfl

theorem ownMemErrors_of_bad (hbody : f.body = [m]) (h : 2 ≤ m.toNat) (t : State) : ownMemErrors f t = t.answer f .badArg [] := by
  have hm : u1At f.body 0 = m.toNat := by rw [hbody]; rfl
  unfold ownMemErrors
  rw [hm]
  split
  · omega
  · omega
  · rfl

theorem boolByte_true : boolByte true = [1] := by decide
theorem boolByte_false : boolByte false = [0] := by decide

/-- The seven bytes of a location that the record may lack, written out (R203). -/
theorem optLocation_eq (l : Option Location) :
    optLocation l = match l with
      | some l => 1 :: (beBytes 2 l.page ++ beBytes 2 l.offset ++
          match l.owner with
          | some o => [instByte o.inst, BitVec.ofNat 8 o.line]
          | none => [0xFF, 0xFF])
      | none => [0, 0, 0, 0, 0, 0, 0] := by
  cases l with
  | none => rfl
  | some l =>
    cases h : l.owner with
    | none =>
      simp only [optLocation, locationDetail, Location.bytes, h, u1_eq, Option.isSome_some, boolByte_true]
      rfl
    | some o =>
      simp only [optLocation, locationDetail, Location.bytes, h, u1_eq, Option.isSome_some, boolByte_true]
      rfl

end

/-- Settles O38: by the state of the part and the request's code. -/
theorem memErrorsReadsTheRecord : Obligations.MemErrorsReadsTheRecord := by
  intro s f rest m htake hkind hbody place body
  have hplace (l : Option Location) : optLocation l = place l := optLocation_eq l
  have hbytes : memErrorsBody s = body := by
    simp only [memErrorsBody, hplace, u1_eq]
    rfl
  refine ⟨exec_memErrors_of_setup htake hkind hbody, fun hrun hm => ?_, fun hrun hm => ?_, fun hrun hm => ?_⟩
  · rw [exec_memErrors_of_run htake hkind hbody hrun, ownMemErrors_of_keep (by rw [hbody, hm]), hbytes]
  · rw [exec_memErrors_of_run htake hkind hbody hrun, ownMemErrors_of_clear (by rw [hbody, hm]), hbytes]
    rfl
  · rw [exec_memErrors_of_run htake hkind hbody hrun, ownMemErrors_of_bad hbody hm]
    rfl

end Sys2Proof.Machine
end

section
/-! The status requests (R21, R92, R194): obligation O10. -/

namespace Sys2Proof.Machine

section
variable {s : State} {f : Frame} {rest : List Frame} {i : InstNo}

/-! ### PART_STATUS and POOL_STATUS -/

theorem exec_partStatus (s : State) : exec .partStatus s = .next (serveKind .partStatus ownPartStatus s) := rfl
theorem exec_poolStatus (s : State) : exec .poolStatus s = .next (serveKind .poolStatus ownPoolStatus s) := rfl
theorem exec_instanceStatus (s : State) : exec .instanceStatus s = .next (serveKind .instanceStatus ownInstStatus s) := rfl

theorem exec_partStatus_of_canTake (htake : CanTake s f rest) (hkind : f.kind = 0x02) (hbody : f.body = []) :
    exec .partStatus s = .next (s.replied f rest .ok (partStatusBody (s.takenInFlight rest))) := by
  rw [exec_partStatus, serveKind_of_servedInSetup htake (by rw [hkind]; rfl) (by rw [hbody]; rfl) rfl (by decide)]
  rfl

theorem LockState.code_eq (l : LockState) : l.code = if l = .locked then 1 else 0 := by
  cases l <;> rfl

theorem exec_poolStatus_of_run {r : Run} (htake : CanTake s f rest) (hkind : f.kind = 0x05) (hbody : f.body = []) (hrun : s.run = some r) :
    exec .poolStatus s = .next (s.replied f rest .ok (poolStatusBody r s)) := by
  have hown : ownPoolStatus f (s.takenInFlight rest) = s.replied f rest .ok (poolStatusBody r s) := by
    unfold ownPoolStatus
    rw [State.takenInFlight_run, hrun]
    rfl
  rw [exec_poolStatus, serveKind_of_run htake (by rw [hrun]; rfl) (by rw [hkind]; rfl) (by rw [hbody]; rfl) (by decide), hown]

/-! ### INSTANCE_STATUS -/

theorem exec_instanceStatus_of_run (htake : CanTake s f rest) (hrun : s.run.isSome = true) (hkind : f.kind = 0x28)
    (hbody : f.body = [instByte i]) : exec .instanceStatus s = .next (s.replied f rest .ok (instStatusBody i s)) := by
  have hbyte : byteAt f.body 0 = instByte i := by rw [hbody]; rfl
  have hown : ownInstStatus f (s.takenInFlight rest) = s.replied f rest .ok (instStatusBody i s) := by
    simp only [ownInstStatus, hbyte, instOf_instByte]
    rfl
  rw [exec_instanceStatus, serveKind_of_run htake hrun (by rw [hkind]; rfl) (by rw [hbody]; rfl) (by decide), hown]

/-- The name field of INSTANCE_STATUS. -/
def statusName (x : Inst) : List Byte :=
  match x.program with
  | some p => p.name
  | none => List.replicate 16 0

/-- The fields of INSTANCE_STATUS between the name and the taps. -/
def statusFields (i : InstNo) (s : State) : List Byte :=
  let x := s.inst i
  optByte (if x.state = .waiting then s.queue.idxOf? i else none) ++ optByte (if x.state = .spilling then s.spill.idxOf? i else none)
    ++ u2 (currentGains x).1 ++ u2 (currentGains x).2 ++ u1 x.cost ++ u2 (x.pagesIn .far) ++ u1 (x.pagesIn .near)
    ++ optByte x.lastLevel ++ u1 x.quietCount ++ u2 x.spillWindows ++ boolByte x.clip ++ u1 x.stopReason.code
    ++ u1 (statusTapCount x)

/-- The first three bytes of INSTANCE_STATUS. -/
def statusHead (i : InstNo) (s : State) : List Byte :=
  [instByte i] ++ u1 (s.inst i).state.code ++ optByte ((s.inst i).slot.map Fin.val)

theorem instStatusBody_eq (i : InstNo) (s : State) :
    instStatusBody i s = statusHead i s ++ (statusName (s.inst i) ++ (statusFields i s ++ statusTaps (s.inst i))) := by
  simp only [instStatusBody, statusHead, statusFields, listPlace, u1_eq i.val, instByte, List.append_assoc, beq_iff_eq]
  rfl

theorem currentGains_eq (x : Inst) :
    currentGains x = ((x.running.map Running.inGain).getD 0, (x.running.map Running.outGain).getD 0) := by
  unfold currentGains
  cases x.running <;> rfl

theorem optByte_length (o : Option Nat) : (optByte o).length = 1 := by
  cases o <;> exact beBytes_length _ _

theorem statusHead_length (i : InstNo) (s : State) : (statusHead i s).length = 3 := by
  simp [statusHead, optByte_length, u1, beBytes_length]

theorem statusFields_length (i : InstNo) (s : State) : (statusFields i s).length = 17 := by
  simp [statusFields, optByte_length, u1, u2, boolByte, beBytes_length]

theorem instStatusBody_take : (instStatusBody i s).take 3 = statusHead i s := by
  rw [instStatusBody_eq, List.take_left' (statusHead_length i s)]

theorem instStatusBody_drop :
    (instStatusBody i s).drop 3 = statusName (s.inst i) ++ (statusFields i s ++ statusTaps (s.inst i)) := by
  rw [instStatusBody_eq, List.drop_left' (statusHead_length i s)]

theorem instStatusBody_drop_name (hname : (statusName (s.inst i)).length = 16) :
    (instStatusBody i s).drop 19 = statusFields i s ++ statusTaps (s.inst i) := by
  rw [show 19 = 3 + 16 from rfl, ← List.drop_drop, instStatusBody_drop, List.drop_left' hname]

theorem instStatusBody_drop_fields (hname : (statusName (s.inst i)).length = 16) :
    (instStatusBody i s).drop 36 = statusTaps (s.inst i) := by
  rw [show 36 = 19 + 17 from rfl, ← List.drop_drop, instStatusBody_drop_name hname, List.drop_left' (statusFields_length i s)]

end

/-- Settles O10: each body field by field. -/
theorem statusRepliesReadTheState : Obligations.StatusRepliesReadTheState := by
  refine ⟨rfl, rfl, fun s f rest htake => ⟨fun hkind hbody => ?_, fun r hrun hkind hbody => ?_, fun i hrun hkind hbody => ?_⟩⟩
  · refine ⟨setupField s, ?_, fun r hr => ?_, fun hnone => ?_, ?_⟩
    · unfold setupField
      split
      · simp [setupBytes, u4, u2, u1, beBytes_length]
      · rfl
    · simp only [setupField, hr]
      rfl
    · simp only [setupField, hnone]
      rfl
    · rw [exec_partStatus_of_canTake htake hkind hbody, ← LockState.code_eq]
      rfl
  · rw [exec_poolStatus_of_run htake hkind hbody hrun]
    rfl
  · refine ⟨_, exec_instanceStatus_of_run htake hrun hkind hbody, instStatusBody_take, fun r hempty => ?_, fun hp hy => ?_,
      fun p hp hname => ?_⟩
    · rw [instStatusBody_eq, statusHead, statusFields, hempty]
      simp [Inst.emptyWith, statusName, currentGains, Inst.cost, Inst.pagesIn, statusTapCount, statusTaps, optByte, boolByte, u1, u2,
        beBytes, InstState.code, StopReason.code, List.replicate]
    · rw [instStatusBody_drop, statusFields, currentGains_eq]
      simp only [statusName, statusTapCount, statusTaps, Inst.cost, Inst.pagesIn, hp, hy, List.append_assoc]
      rfl
    · have hlen : (statusName (s.inst i)).length = 16 := by simpa only [statusName, hp] using hname
      rw [instStatusBody_drop, instStatusBody_drop_name hlen, instStatusBody_drop_fields hlen]
      refine ⟨?_, ?_, fun r hr => ?_, fun hnone => ?_⟩
      · rw [List.take_left' hlen]
        simp only [statusName, hp]
      · rw [List.take_left' (statusFields_length i s)]
        simp only [statusFields, currentGains_eq, statusTapCount, hp]
      · simp only [statusTaps, hr]
      · simp only [statusTaps, hnone, hp]
        rfl

end Sys2Proof.Machine
end

section
/-! SETUP and SOFT_RESET (R18 to R20, R180, R192, R195): obligations O11 and O12. -/

namespace Sys2Proof.Machine

/-! ### SETUP -/

theorem rateOf_hz (rate : SampleRate) : rateOf rate.hz = some rate := by
  cases rate <;> rfl

theorem farSizeOf_pages (size : FarSize) : farSizeOf size.pages = some size := by
  cases size <;> rfl

theorem polarityOf_code (pol : Polarity) : polarityOf pol.code = some pol := by
  cases pol <;> rfl

theorem rateOf_of_bad {n : Nat} (h1 : n ≠ 48000) (h2 : n ≠ 96000) : rateOf n = none := by
  simp [rateOf, h1, h2]

theorem farSizeOf_of_bad {n : Nat} (h1 : n ≠ 1024) (h2 : n ≠ 2048) (h4 : n ≠ 4096) : farSizeOf n = none := by
  simp [farSizeOf, h1, h2, h4]

theorem polarityOf_of_bad {n : Nat} (h : 1 < n) : polarityOf n = none := by
  have h0 : n ≠ 0 := by omega
  have h1 : n ≠ 1 := by omega
  simp [polarityOf, h0, h1]

/-- An inverted word is looked for in the memory alone. -/
theorem ignoresLink_upset (u : Upset) : IgnoresLink (State.upset u) := by
  intro l s
  obtain h | ⟨w, h⟩ := Option.eq_none_or_eq_some (cellGet s.dram u.addr)
  · simp only [State.upset, h]
  · simp only [State.upset, h]

theorem ignoresLink_upsets (us : List Upset) : IgnoresLink (State.upsets us) := by
  induction us with
  | nil => exact fun _ _ => rfl
  | cons u us ih =>
    intro l s
    show State.upsets us (State.upset u { s with link := l }) = _
    rw [ignoresLink_upset, ih]
    rfl

theorem ignoresLink_sized (size : FarSize) (us : List Upset) : IgnoresLink (State.sized size us) := fun l s =>
  ignoresLink_upsets us l ((s.writeDram 0 markerA).writeDram (markerBAddr size) markerB)

theorem State.sizingPasses_iff (size : FarSize) (s : State) :
    s.sizingPasses size = true ↔ s.dramWord 0 = validWord markerA ∧ s.dramWord (markerBAddr size) = validWord markerB := by
  simp [State.sizingPasses]

section
variable {s : State} {f : Frame} {rest : List Frame} {d : Nat} {us : List Upset}

theorem exec_setup_of_canTake (htake : CanTake s f rest) (hkind : f.kind = 0x03) (hlen : f.body.length = 7) (hrun : s.run = none) :
    exec (.setup ⟨d, us⟩) s = .next (ownSetup ⟨d, us⟩ f (s.takenInFlight rest)) := by
  refine congrArg Host.Outcome.next (serve_owner htake (by rw [hkind]; rfl) rfl ?_)
  refine State.precheck_eq_none (by simp [Kind.lengthOk, hlen]) (fun _ => rfl) fun r hr => ?_
  rw [State.takenInFlight_run, hrun] at hr
  cases hr

theorem ownSetup_of_bad (t : State)
    (h : uAt 4 f.body 0 ≠ 48000 ∧ uAt 4 f.body 0 ≠ 96000 ∨
      uAt 2 f.body 4 ≠ 1024 ∧ uAt 2 f.body 4 ≠ 2048 ∧ uAt 2 f.body 4 ≠ 4096 ∨ 1 < u1At f.body 6) :
    ownSetup ⟨d, us⟩ f t = t.answer f .badArg [] := by
  unfold ownSetup
  split
  · next hrate hsize hpol =>
    obtain ⟨h1, h2⟩ | ⟨h1, h2, h4⟩ | h1 := h
    · rw [rateOf_of_bad h1 h2] at hrate; cases hrate
    · rw [farSizeOf_of_bad h1 h2 h4] at hsize; cases hsize
    · rw [polarityOf_of_bad h1] at hpol; cases hpol
  · rfl

variable {rate : SampleRate} {size : FarSize} {pol : Polarity}

theorem ownSetup_of_good (t : State) (hrate : uAt 4 f.body 0 = rate.hz) (hsize : uAt 2 f.body 4 = size.pages)
    (hpol : u1At f.body 6 = pol.code) :
    ownSetup ⟨d, us⟩ f t =
      if (t.sized size us).sizingPasses size then
        State.answer f .ok (setupBytes rate size pol ++ u2 rate.budget) ((t.sized size us).enterRun d rate size pol)
      else (t.sized size us).answer f .memoryAbsent [] := by
  simp only [ownSetup, hrate, hsize, hpol, rateOf_hz, farSizeOf_pages, polarityOf_code]

end

/-- Settles O11: the fields first, then the sizing check of the memory as the device left it. -/
theorem setupBuildsThePools : Obligations.SetupBuildsThePools := by
  intro s f rest d us htake hkind hlen hrun
  rw [exec_setup_of_canTake htake hkind hlen hrun]
  refine ⟨fun hbad => ?_, fun rate size pol hrate hsize hpol => ?_⟩
  · rw [ownSetup_of_bad _ hbad]
    rfl
  · intro a m
    have hm : (s.takenInFlight rest).sized size us = m.takenInFlight rest := (ignoresLink_sized size us).takenInFlight rest s
    rw [ownSetup_of_good _ hrate hsize hpol, hm]
    have hpass : (m.takenInFlight rest).sizingPasses size = true ↔
        m.dramWord 0 = validWord 0x5A5A5A ∧ m.dramWord a = validWord (0xA5A5A5 - 0x1000000) := State.sizingPasses_iff size m
    refine ⟨fun hbad => ?_, fun h0 ha => ?_⟩
    · rw [if_neg fun h => ?_]
      · rfl
      · obtain ⟨h0, ha⟩ := hpass.1 h
        exact hbad.elim (absurd h0) (absurd ha)
    · rw [if_pos (hpass.2 ⟨h0, ha⟩)]
      rfl

/-! ### SOFT_RESET -/

/-- The reply to a GO in flight (R187). -/
def goReplies (st : Status) (c : CueCounts) (s : State) : List Reply :=
  match s.cue.origin with
  | some (.request tag) => [⟨tag, 0xB3, st, c.bytes⟩]
  | some .pin => []
  | none => []

/-- The reply to a line access in flight (R187). -/
def accessReplies (st : Status) (s : State) : List Reply :=
  match s.access with
  | some a => [a.reply st]
  | none => []

/-- Replies placed together, each in a reserved place. -/
def State.placed (rs : List Reply) (s : State) : State :=
  { s with link := { s.link with reserved := s.link.reserved - rs.length, sendOrder := s.link.sendOrder ++ rs } }

theorem State.placed_nil (s : State) : s.placed [] = s := by
  simp only [State.placed, List.append_nil]
  rfl

theorem State.answerGo_eq (st : Status) (c : CueCounts) (s : State) : s.answerGo st c = s.placed (goReplies st c s) := by
  unfold State.answerGo
  split
  · next tag h =>
    rw [goReplies, h]
    rfl
  · next h => rw [goReplies, h, State.placed_nil]
  · next h => rw [goReplies, h, State.placed_nil]

theorem State.endAccess_eq (st : Status) (s : State) :
    s.endAccess st = State.placed (accessReplies st s) { s with access := none } := by
  obtain h | ⟨a, h⟩ := Option.eq_none_or_eq_some s.access
  · rw [accessReplies, h, State.placed_nil, State.endAccess, h]
    show s = { s with access := none }
    rw [← h]
  · simp only [accessReplies, State.endAccess, h]
    rfl

/-- Settles O12: the two replies that SOFT_RESET places ahead of its own, and the engine emptied. -/
theorem softResetEmptiesTheEngine : Obligations.SoftResetEmptiesTheEngine := by
  intro s f rest r htake hkind hbody hrun goReply accessReply
  have hgo : goReplies .aborted CueCounts.zero (s.takenInFlight rest) = goReply := rfl
  have haccess : accessReplies .aborted ((s.takenInFlight rest).placed goReply) = accessReply := rfl
  have hexec : exec .softReset s = .next (ownSoftReset f (s.takenInFlight rest)) :=
    congrArg Host.Outcome.next (serveKind_of_run htake (by rw [hrun]; rfl) (by rw [hkind]; rfl) (by rw [hbody]; rfl) (by decide))
  have hown : ownSoftReset f (s.takenInFlight rest) =
      (let s1 := State.placed accessReply { (s.takenInFlight rest).placed goReply with access := none }
       let s2 := s1.softEngine r
       State.answer f .ok [] { s2 with notices := s2.notices.clearAll }) := by
    unfold ownSoftReset
    rw [State.takenInFlight_run, hrun, State.answerGo_eq, hgo, State.endAccess_eq, haccess]
  have hplaces : s.link.reserved + 1 - goReply.length - accessReply.length - 1 =
      s.link.reserved - (goReply.length + accessReply.length) := by omega
  rw [hexec, hown, ← hplaces]
  have hkinds : replyKind f.kind = 0x84 := by rw [hkind]; rfl
  rw [← hkinds]
  rfl

end Sys2Proof.Machine
end

section
/-! Requests that change library slots, PROTECT and LIST (R136, R143 to R146): obligation O17. -/

namespace Sys2Proof.Machine

theorem slotOf_eq_some_iff {b : Byte} {k : SlotNo} : slotOf b = some k ↔ b = slotByte k := by
  constructor
  · intro h
    unfold slotOf at h
    split at h
    · obtain rfl := Option.some.inj h
      simp [slotByte]
    · cases h
  · rintro rfl
    exact slotOf_slotByte k

theorem LibSlot.eq_iff_of_open {x : LibSlot} {r : Option PresetRecord} (h : x.guarded = false) : x = ⟨r, false⟩ ↔ x.record = r := by
  cases x
  simp_all

/-! ### A request that writes one slot, before and after an application event that is due (R146, log 25) -/

section
variable {s : State} {k : SlotNo} {y : LibSlot} {taken : State → State}

/-- The LOAD entries that are due read the slot that the request changes. -/
theorem State.loadDiffers_of_write (h : (taken s).library = (s.setLibSlot k y).library) :
    s.loadDiffers (taken s) = true ↔
      s.cue.due = true ∧ (∃ e ∈ s.cue.fired, e.action = .load ∧ e.slot = slotByte k) ∧ s.libSlot k ≠ y := by
  have hslot (j : SlotNo) : (taken s).libSlot j = if j = k then y else s.libSlot j := by
    have hlib : (taken s).libSlot j = (s.setLibSlot k y).libSlot j := by rw [State.libSlot, State.libSlot, h]
    rw [hlib]
    split
    · next hj => rw [hj, State.setLibSlot_libSlot_self]
    · next hj => exact State.setLibSlot_libSlot_ne hj y s
  rw [State.loadDiffers_iff]
  constructor
  · rintro ⟨hdue, e, he, hload, j, hj, hne⟩
    rw [hslot] at hne
    by_cases hjk : j = k
    · subst hjk
      rw [if_pos rfl] at hne
      exact ⟨hdue, ⟨e, he, hload, slotOf_eq_some_iff.1 hj⟩, hne⟩
    · rw [if_neg hjk] at hne
      exact absurd rfl hne
  · rintro ⟨hdue, ⟨e, he, hload, hj⟩, hne⟩
    refine ⟨hdue, e, he, hload, k, slotOf_eq_some_iff.2 hj, ?_⟩
    rwa [hslot, if_pos rfl]

theorem State.applyCue_libSlot (s : State) (k : SlotNo) : s.applyCue.libSlot k = s.libSlot k := by
  rw [State.libSlot, State.libSlot, State.applyCue_library]

/-- A request that is always answered by one write: it is taken as it is, or behind the application event that is due. -/
theorem State.libraryRequest_of_write {f : Frame} {rest : List Frame} {body : List Byte} (htake : CanTake s f rest)
    (hwrite : ∀ u : State, CanTake u f rest → u.library = s.library →
      taken u = State.replied f rest .ok body (u.setLibSlot k y)) :
    let seen : Prop := s.cue.due = true ∧ (∃ e ∈ s.cue.fired, e.action = .load ∧ e.slot = slotByte k) ∧ s.libSlot k ≠ y
    (¬ seen → s.libraryRequest taken = State.replied f rest .ok body (s.setLibSlot k y)) ∧
    (seen → LinkInv s → s.libraryRequest taken = State.replied f rest .ok body (s.applyCue.setLibSlot k y)) := by
  intro seen
  have hs := hwrite s htake rfl
  have hiff : s.loadDiffers (taken s) = true ↔ seen := State.loadDiffers_of_write (by rw [hs]; rfl)
  refine ⟨fun h => ?_, fun h hlink => ?_⟩
  · rw [State.libraryRequest, if_neg (mt hiff.1 h), hs]
  · rw [State.libraryRequest, if_pos (hiff.2 h)]
    exact hwrite s.applyCue (State.applyCue_canTake htake hlink) s.applyCue_library

end

section
variable {s : State} {f : Frame} {rest : List Frame} {k : SlotNo} {b v n : Byte}

theorem exec_erase (s : State) : exec .erase s = .next (s.libraryRequest (serveKind .erase ownErase)) := rfl
theorem exec_protect (s : State) : exec .protect s = .next (serveKind .protect ownProtect s) := rfl
theorem exec_list (s : State) : exec .list s = .next (serveKind .list ownList s) := rfl

/-! ### ERASE -/

theorem serveKind_erase_of_canTake (htake : CanTake s f rest) (hkind : f.kind = 0x12) (hbody : f.body = [b]) :
    serveKind .erase ownErase s = ownErase f (s.takenInFlight rest) :=
  serveKind_of_servedInSetup htake (by rw [hkind]; rfl) (by rw [hbody]; rfl) rfl (by decide)

theorem ownErase_of_bad (hbody : f.body = [b]) (hb : 64 ≤ b.toNat) :
    ownErase f (s.takenInFlight rest) = s.replied f rest .badArg [b] := by
  have hbyte : byteAt f.body 0 = b := by rw [hbody]; rfl
  simp only [ownErase, hbyte, slotOf_eq_none hb]
  rfl

theorem ownErase_of_guarded (hbody : f.body = [slotByte k]) (h : (s.libSlot k).guarded = true) :
    ownErase f (s.takenInFlight rest) = s.replied f rest .protectedSlot [slotByte k] := by
  have hbyte : byteAt f.body 0 = slotByte k := by rw [hbody]; rfl
  simp only [ownErase, hbyte, slotOf_slotByte, State.takenInFlight_libSlot, h, if_true]
  rfl

theorem ownErase_of_open (hbody : f.body = [slotByte k]) (h : (s.libSlot k).guarded = false) :
    ownErase f (s.takenInFlight rest) = State.replied f rest .ok [slotByte k] (s.setLibSlot k ⟨none, false⟩) := by
  have hbyte : byteAt f.body 0 = slotByte k := by rw [hbody]; rfl
  simp only [ownErase, hbyte, slotOf_slotByte, State.takenInFlight_libSlot, h, Bool.false_eq_true, if_false]
  rfl

/-- An ERASE that leaves the library is taken as it is. -/
theorem exec_erase_of_library {st : Status} {body : List Byte} (htake : CanTake s f rest) (hkind : f.kind = 0x12) (hbody : f.body = [b])
    (hown : ownErase f (s.takenInFlight rest) = s.replied f rest st body) : exec .erase s = .next (s.replied f rest st body) := by
  have hserve := (serveKind_erase_of_canTake htake hkind hbody).trans hown
  rw [exec_erase, State.libraryRequest_of_library (by rw [hserve]; rfl), hserve]

/-! ### PROTECT -/

theorem exec_protect_of_canTake (htake : CanTake s f rest) (hkind : f.kind = 0x13) (hbody : f.body = [b, v]) :
    exec .protect s = .next (ownProtect f (s.takenInFlight rest)) := by
  rw [exec_protect, serveKind_of_servedInSetup htake (by rw [hkind]; rfl) (by rw [hbody]; rfl) rfl (by decide)]

theorem ownProtect_of_bad_slot (hbody : f.body = [b, v]) (hb : 64 ≤ b.toNat) :
    ownProtect f (s.takenInFlight rest) = s.replied f rest .badArg [b] := by
  have hbyte : byteAt f.body 0 = b := by rw [hbody]; rfl
  simp only [ownProtect, hbyte, slotOf_eq_none hb]
  rfl

theorem ownProtect_of_zero (hbody : f.body = [slotByte k, 0]) :
    ownProtect f (s.takenInFlight rest) = State.replied f rest .ok [slotByte k, 0] (s.setLibSlot k ⟨(s.libSlot k).record, false⟩) := by
  have hbyte : byteAt f.body 0 = slotByte k := by rw [hbody]; rfl
  have hv : u1At f.body 1 = 0 := by rw [hbody]; rfl
  simp only [ownProtect, hbyte, slotOf_slotByte, hv, boolByte_false]
  rfl

theorem ownProtect_of_one (hbody : f.body = [slotByte k, 1]) :
    ownProtect f (s.takenInFlight rest) = State.replied f rest .ok [slotByte k, 1] (s.setLibSlot k ⟨(s.libSlot k).record, true⟩) := by
  have hbyte : byteAt f.body 0 = slotByte k := by rw [hbody]; rfl
  have hv : u1At f.body 1 = 1 := by rw [hbody]; rfl
  simp only [ownProtect, hbyte, slotOf_slotByte, hv, boolByte_true]
  rfl

theorem ownProtect_of_bad_value (hbody : f.body = [slotByte k, v]) (h : 2 ≤ v.toNat) :
    ownProtect f (s.takenInFlight rest) = s.replied f rest .badArg [slotByte k] := by
  have hbyte : byteAt f.body 0 = slotByte k := by rw [hbody]; rfl
  have hv : u1At f.body 1 = v.toNat := by rw [hbody]; rfl
  unfold ownProtect
  rw [hbyte, slotOf_slotByte, hv]
  dsimp only
  split
  · omega
  · omega
  · rfl

/-! ### LIST -/

theorem exec_list_of_canTake (htake : CanTake s f rest) (hkind : f.kind = 0x14) (hbody : f.body = [b, n]) :
    exec .list s = .next (ownList f (s.takenInFlight rest)) := by
  rw [exec_list, serveKind_of_servedInSetup htake (by rw [hkind]; rfl) (by rw [hbody]; rfl) rfl (by decide)]

theorem ownList_of_bad_slot (hbody : f.body = [b, n]) (hb : 64 ≤ b.toNat) :
    ownList f (s.takenInFlight rest) = s.replied f rest .badArg [] := by
  have hbyte : byteAt f.body 0 = b := by rw [hbody]; rfl
  simp only [ownList, hbyte, slotOf_eq_none hb]
  rfl

theorem listEntry_eq (x : LibSlot) :
    listEntry x = u1 (if x.record.isSome then 1 else 0) ++ boolByte x.guarded
      ++ ((x.record.map fun r => r.bytes.take 16).getD (List.replicate 16 0)) := by
  unfold listEntry
  cases x.record <;> rfl

theorem ownList_of_slot (hbody : f.body = [slotByte k, n]) :
    ownList f (s.takenInFlight rest) =
      if 1 ≤ n.toNat ∧ n.toNat ≤ 32 then
        s.replied f rest .ok (u1 (listCount k.val n.toNat)
          ++ ((s.library.toList.drop k.val).take (listCount k.val n.toNat)).flatMap listEntry)
      else s.replied f rest .badArg [] := by
  have hbyte : byteAt f.body 0 = slotByte k := by rw [hbody]; rfl
  have hn : u1At f.body 1 = n.toNat := by rw [hbody]; rfl
  simp only [ownList, hbyte, slotOf_slotByte, hn]
  rfl

end

/-- Settles O17: each request by its slot and its value, an ERASE that empties a slot behind the application event where that is due. -/
theorem eraseProtectAndList : Obligations.EraseProtectAndList := by
  intro s f rest htake
  refine ⟨fun b hb => ⟨fun hkind hbody => ?_, fun hkind hbody => ?_, fun v hkind hbody => ?_, fun n hkind hbody => ?_⟩,
    fun k => ⟨fun hkind hbody => ⟨fun hguard => ?_, fun hopen => ?_⟩, fun v hkind hbody => ⟨fun hv => ?_, fun hv => ?_, fun hv => ?_⟩,
      fun n hkind hbody => ⟨fun hn => ?_, fun hn1 hn2 => ?_⟩⟩⟩
  · have hbyte : byteAt f.body 0 = b := by rw [hbody]; rfl
    rw [exec_fetch, serveKind_of_servedInSetup htake (by rw [hkind]; rfl) (by rw [hbody]; rfl) rfl (by decide)]
    simp only [ownFetch, hbyte, slotOf_eq_none hb]
    rfl
  · exact exec_erase_of_library htake hkind hbody (ownErase_of_bad hbody hb)
  · rw [exec_protect_of_canTake htake hkind hbody, ownProtect_of_bad_slot hbody hb]
  · rw [exec_list_of_canTake htake hkind hbody, ownList_of_bad_slot hbody hb]
  · exact exec_erase_of_library htake hkind hbody (ownErase_of_guarded hbody hguard)
  · intro seen
    have hwrite (u : State) (hu : CanTake u f rest) (hlib : u.library = s.library) :
        serveKind .erase ownErase u = State.replied f rest .ok [slotByte k] (u.setLibSlot k ⟨none, false⟩) := by
      rw [serveKind_erase_of_canTake hu hkind hbody, ownErase_of_open hbody (by rwa [State.libSlot, hlib])]
    have hseen : s.libSlot k ≠ ⟨none, false⟩ ↔ (s.libSlot k).record ≠ none := not_congr (LibSlot.eq_iff_of_open hopen)
    obtain ⟨hunseen, hdue⟩ := State.libraryRequest_of_write htake hwrite
    rw [hseen] at hunseen hdue
    exact ⟨fun h => congrArg Host.Outcome.next (hunseen h),
      fun h hlink => ⟨s.applyCue, rfl, s.applyCue_library, congrArg Host.Outcome.next (hdue h hlink)⟩⟩
  · rw [exec_protect_of_canTake htake hkind hbody, ownProtect_of_zero (by rw [hbody, hv])]
  · rw [exec_protect_of_canTake htake hkind hbody, ownProtect_of_one (by rw [hbody, hv])]
  · rw [exec_protect_of_canTake htake hkind hbody, ownProtect_of_bad_value hbody hv]
  · rw [exec_list_of_canTake htake hkind hbody, ownList_of_slot hbody, if_neg]
    rintro ⟨h1, h2⟩
    obtain rfl | h := hn
    · exact absurd h1 (by decide)
    · omega
  · rw [exec_list_of_canTake htake hkind hbody, ownList_of_slot hbody, if_pos ⟨hn1, hn2⟩, funext listEntry_eq]
    rfl

end Sys2Proof.Machine
end

section
/-! STORE (R135 to R141, R146): the field index of a record's first fault, and the order of its checks: obligation O13. -/

namespace Sys2Proof.Machine

/-! ### The first fault of a list of checks -/

theorem firstFault_eq_some_iff {checks : List Bool} {k n : Nat} :
    firstFault k checks = some n ↔ ∃ m, n = k + m ∧ checks[m]? = some false ∧ ∀ j < m, checks[j]? = some true := by
  induction checks generalizing k with
  | nil => simp [firstFault]
  | cons c checks ih =>
    cases c with
    | false =>
      constructor
      · intro h
        exact ⟨0, (Option.some.inj h).symm, rfl, nofun⟩
      · rintro ⟨m, rfl, -, hbefore⟩
        cases m with
        | zero => rfl
        | succ m => exact absurd (hbefore 0 (Nat.succ_pos m)) (by simp)
    | true =>
      rw [firstFault, ih]
      constructor
      · rintro ⟨m, rfl, hm, hbefore⟩
        refine ⟨m + 1, by omega, hm, fun j hj => ?_⟩
        cases j with
        | zero => rfl
        | succ j => exact hbefore j (Nat.lt_of_succ_lt_succ hj)
      · rintro ⟨m, rfl, hm, hbefore⟩
        cases m with
        | zero => exact absurd hm (by simp)
        | succ m => exact ⟨m, by omega, hm, fun j hj => hbefore (j + 1) (Nat.succ_lt_succ hj)⟩

/-- A check that is not passed is failed. -/
theorem getElem?_eq_some_false_iff {checks : List Bool} {m : Nat} (h : m < checks.length) :
    checks[m]? = some false ↔ ¬ checks[m]? = some true := by
  rw [List.getElem?_eq_getElem h]
  cases checks[m] <;> simp

theorem forall_mem_iff_getElem? {checks : List Bool} : (∀ c ∈ checks, c = true) ↔ ∀ m < checks.length, checks[m]? = some true := by
  rw [List.forall_mem_iff_getElem]
  refine forall₂_congr fun m hm => ?_
  rw [List.getElem?_eq_getElem hm, Option.some.injEq]

/-- Entries of one width, read at a place of the whole list. -/
theorem getElem?_flatMap_range {α : Type} {g : Nat → List α} {w n m : Nat} (hg : ∀ j, (g j).length = w) (h : m < n * w) :
    ((List.range n).flatMap g)[m]? = (g (m / w))[m % w]? := by
  induction n with
  | zero => simp at h
  | succ n ih =>
    have hlen : ((List.range n).flatMap g).length = n * w := by simp [List.length_flatMap, hg]
    rw [List.range_succ, List.flatMap_append, List.flatMap_singleton]
    by_cases hm : m < n * w
    · rw [List.getElem?_append_left (by omega), ih hm]
    · have hw : 0 < w := Nat.pos_of_ne_zero fun h0 => by simp [h0] at h
      have hdiv : m / w = n := Nat.div_eq_of_lt_le (Nat.not_lt.1 hm) h
      have hmod : m % w = m - n * w := by rw [← hdiv, Nat.mod_eq_sub_div_mul]
      rw [List.getElem?_append_right (by omega), hlen, hdiv, hmod]

/-! ### The checks of a record, place by place (R135, R138, R140) -/

section
variable {r : List Byte} {nl nt o m : Nat}

theorem length_entryChecks (r : List Byte) : (entryChecks r).length = 3 * u1At r 16 + 10 * u1At r 17 + 6 := by
  simp [entryChecks, List.length_flatMap, lineChecks, tapChecks, lfoChecks]
  omega

theorem uAt_two_eq (h : o + 1 < r.length) : uAt 2 r o = u1At r o * 256 + u1At r (o + 1) := by
  obtain ⟨a, l, hl⟩ := List.exists_cons_of_ne_nil (l := r.drop o) (by rw [ne_eq, List.drop_eq_nil_iff]; omega)
  obtain ⟨b, l', hl'⟩ := List.exists_cons_of_ne_nil (l := l) (by
    intro hnil
    have := congrArg List.length hl
    simp [hnil] at this
    omega)
  have ha : u1At r o = a.toNat := by
    have := congrArg (·[0]?) hl
    simp at this
    simp [u1At, byteAt, List.getD_eq_getElem?_getD, this]
  have hb : u1At r (o + 1) = b.toNat := by
    have := congrArg (·[1]?) hl
    simp [hl'] at this
    simp [u1At, byteAt, List.getD_eq_getElem?_getD, this]
  simp [uAt, hl, hl', ha, hb, beVal]

/-- A signed field is not negative where its first byte is below 128. -/
theorem s2At_nonneg_iff (h : o + 1 < r.length) : 0 ≤ s2At r o ↔ u1At r o < 128 := by
  have hlow : u1At r (o + 1) < 256 := BitVec.isLt _
  have hword := uAt_two_eq h
  have hlt := uAt_lt 2 r o
  simp only [s2At, BitVec.toInt_eq_toNat_cond, BitVec.toNat_ofNat]
  split <;> omega

theorem isSome_getElem?_iff {α : Type} {l : List α} {n : Nat} : l[n]?.isSome = true ↔ n < l.length := by
  simp [Option.isSome_iff_ne_none]

theorem placementOf_isSome_iff {n : Nat} : (placementOf n).isSome = true ↔ n ≤ 2 := by
  rw [placementOf_eq, isSome_getElem?_iff]
  exact Nat.lt_succ_iff

theorem placementOf_near_iff {n : Nat} : placementOf n = some .near ↔ n = 0 := by
  unfold placementOf
  split <;> simp_all

theorem feedOf_isSome_iff {n : Nat} : (feedOf n).isSome = true ↔ n ≤ 3 := by
  rw [feedOf_eq, isSome_getElem?_iff]
  exact Nat.lt_succ_iff

theorem sourceOf_isSome_iff {n : Nat} : (sourceOf n).isSome = true ↔ n ≤ 1 := by
  rw [sourceOf_eq, isSome_getElem?_iff]
  exact Nat.lt_succ_iff

theorem lfoSelOf_isSome_iff {n : Nat} : (lfoSelOf n).isSome = true ↔ n ≤ 2 := by
  rw [lfoSelOf_eq, isSome_getElem?_iff]
  exact Nat.lt_succ_iff

theorem holdOf_isSome_iff {n : Nat} : (holdOf n).isSome = true ↔ n ≤ 1 := by
  rw [holdOf_eq, isSome_getElem?_iff]
  exact Nat.lt_succ_iff

theorem shapeOf_isSome_iff {n : Nat} : (shapeOf n).isSome = true ↔ n ≤ 1 := by
  rw [shapeOf_eq, isSome_getElem?_iff]
  exact Nat.lt_succ_iff

theorem destOk_iff {n : Nat} (hnl : nl ≤ 8) : destOk nl n = true ↔ n < nl ∨ n = 8 ∨ n = 9 := by
  unfold destOk destOf
  split_ifs with h8 h9 h10
  · simp only [decide_eq_true_eq]
    omega
  · simp [h9]
  · simp [h10]
  · simp only [Bool.false_eq_true, false_iff]
    omega

theorem lineChecks_iff :
    ((lineChecks r o)[0]? = some true ↔ u1At r o ≤ 2) ∧
    ((lineChecks r o)[1]? = some true ↔ 1 ≤ u1At r (o + 1) ∧ u1At r (o + 1) ≤ if u1At r o = 0 then 4 else 128) ∧
    ((lineChecks r o)[2]? = some true ↔ u1At r (o + 2) ≤ 3) := by
  simp [lineChecks, placementOf_isSome_iff, placementOf_near_iff, feedOf_isSome_iff]

theorem lfoChecks_iff :
    ((lfoChecks r o)[0]? = some true ↔ 10 ≤ uAt 2 r o ∧ uAt 2 r o ≤ 20000) ∧
    ((lfoChecks r o)[1]? = some true ↔ u1At r (o + 2) ≤ 1) ∧ (lfoChecks r o)[2]? = some true := by
  simp [lfoChecks, shapeOf_isSome_iff]

/-- The check of field m of a tap entry, by R135 and R140. -/
def tapFieldOk (r : List Byte) (nl o : Nat) (m : Nat) : Prop :=
  match m with
  | 0 => uAt 2 r (o + 10) / 2 ^ 13 < nl
  | 1 => uAt 4 r (o + 6) / 2 ^ 30 ≤ 1
  | 2 => 256 ≤ uAt 4 r (o + 6) % 2 ^ 26 ∧ uAt 4 r (o + 6) % 2 ^ 26 ≤ 67108352
  | 3 => 1 ≤ uAt 2 r (o + 10) % 2 ^ 9 ∧ uAt 2 r (o + 10) % 2 ^ 9 ≤ 384
  | 4 => uAt 2 r (o + 10) / 2 ^ 11 % 4 ≤ 2
  | 7 => uAt 2 r (o + 4) ≤ 32767
  | 8 => uAt 4 r (o + 6) / 2 ^ 26 % 16 < nl ∨ uAt 4 r (o + 6) / 2 ^ 26 % 16 = 8 ∨ uAt 4 r (o + 6) / 2 ^ 26 % 16 = 9
  | 9 => uAt 2 r (o + 10) / 2 ^ 9 % 4 ≤ 1
  | _ => True

theorem tapChecks_iff (hnl : nl ≤ 8) (hm : m < 10) : (tapChecks r nl o)[m]? = some true ↔ tapFieldOk r nl o m := by
  rw [tapChecks, tapRawAt_eq]
  dsimp only
  interval_cases m
  · simp [tapFieldOk]
  · simp [tapFieldOk, sourceOf_isSome_iff]
  · simp [tapFieldOk]
  · simp [tapFieldOk]
  · simp [tapFieldOk, lfoSelOf_isSome_iff]
  · simp [tapFieldOk]
  · simp [tapFieldOk]
  · simp [tapFieldOk]
  · simp [tapFieldOk, destOk_iff hnl]
  · simp [tapFieldOk, holdOf_isSome_iff]

/-- The check of header field m, by R135 and R138. -/
def headerFieldOk (r : List Byte) (m : Nat) : Prop :=
  match m with
  | 0 => nameWf (r.take 16)
  | 1 => 1 ≤ u1At r 16 ∧ u1At r 16 ≤ 8
  | 2 => 1 ≤ u1At r 17 ∧ u1At r 17 ≤ 32
  | 3 => u1At r 18 < 128
  | 4 => u1At r 20 < 128
  | 6 => u1At r 24 ≤ 8
  | 7 => 1 ≤ u1At r 25 ∧ u1At r 25 ≤ 15
  | 8 => uAt 2 r 26 ≠ 0
  | _ => True

theorem headerChecks_getElem?_iff (hlen : 32 ≤ r.length) (hm : m < 9) :
    (headerChecks r)[m]? = some true ↔ headerFieldOk r m := by
  have hname : (r.take 16).length = 16 := by rw [List.length_take]; omega
  have hin := (s2At_mem_range r 18).2
  have hout := (s2At_mem_range r 20).2
  rw [headerChecks]
  interval_cases m
  · simp [headerFieldOk, nameWf_iff_nameOk hname]
  · simp [headerFieldOk]
  · simp [headerFieldOk]
  · simp [headerFieldOk, hin, s2At_nonneg_iff (r := r) (o := 18) (by omega)]
  · simp [headerFieldOk, hout, s2At_nonneg_iff (r := r) (o := 20) (by omega)]
  · simp [headerFieldOk]
  · simp [headerFieldOk]
  · simp [headerFieldOk]
  · simp [headerFieldOk, Nat.one_le_iff_ne_zero]

theorem length_lineEntries (r : List Byte) (n : Nat) : ((List.range n).flatMap fun j => lineChecks r (lineOffset j)).length = n * 3 := by
  simp [List.length_flatMap, lineChecks]

theorem length_tapEntries (r : List Byte) (nl n : Nat) :
    ((List.range n).flatMap fun t => tapChecks r nl (tapOffset nl t)).length = n * 10 := by
  simp [List.length_flatMap, tapChecks]

/-- The check of a line entry at its place. -/
theorem entryChecks_line (h : m < u1At r 16 * 3) : (entryChecks r)[m]? = (lineChecks r (lineOffset (m / 3)))[m % 3]? := by
  have hlen := length_lineEntries r (u1At r 16)
  rw [entryChecks, List.append_assoc, List.append_assoc, List.getElem?_append_left (by omega)]
  exact getElem?_flatMap_range (fun _ => rfl) h

/-- The check of a tap entry at its place. -/
theorem entryChecks_tap (hline : u1At r 16 * 3 ≤ m) (h : m - u1At r 16 * 3 < u1At r 17 * 10) :
    (entryChecks r)[m]? =
      (tapChecks r (u1At r 16) (tapOffset (u1At r 16) ((m - u1At r 16 * 3) / 10)))[(m - u1At r 16 * 3) % 10]? := by
  have hlen := length_lineEntries r (u1At r 16)
  have hlen' := length_tapEntries r (u1At r 16) (u1At r 17)
  rw [entryChecks, List.append_assoc, List.append_assoc, List.getElem?_append_right (by omega), hlen,
    List.getElem?_append_left (by omega)]
  exact getElem?_flatMap_range (fun _ => rfl) h

/-- The check of an LFO entry at its place. -/
theorem entryChecks_lfo (hline : u1At r 16 * 3 ≤ m) (htap : u1At r 17 * 10 ≤ m - u1At r 16 * 3)
    (h : m - u1At r 16 * 3 - u1At r 17 * 10 < 6) :
    (entryChecks r)[m]? =
      (lfoChecks r (lfoOffset (u1At r 16) (u1At r 17) ((m - u1At r 16 * 3 - u1At r 17 * 10) / 3)))[(m - u1At r 16 * 3 - u1At r 17 * 10) % 3]? := by
  have hlen := length_lineEntries r (u1At r 16)
  have hlen' := length_tapEntries r (u1At r 16) (u1At r 17)
  rw [entryChecks, List.append_assoc, List.append_assoc, List.getElem?_append_right (by omega), hlen,
    List.getElem?_append_right (by omega), hlen']
  generalize m - u1At r 16 * 3 - u1At r 17 * 10 = q at h ⊢
  interval_cases q <;> rfl

end

/-! ### The first fault of a record (R137 to R139) -/

section
variable {r : List Byte} {G : Nat → Prop}

theorem length_headerChecks (r : List Byte) : (headerChecks r).length = 9 := rfl

/-- The fault of the header: the first of its nine fields that is not good. -/
theorem firstFault_headerChecks_iff {n : Nat} (hheader : ∀ m < 9, (headerChecks r)[m]? = some true ↔ G m) :
    firstFault 0 (headerChecks r) = some n ↔ n < 9 ∧ ¬ G n ∧ ∀ m < n, G m := by
  rw [firstFault_eq_some_iff]
  constructor
  · rintro ⟨m, rfl, hm, hbefore⟩
    have hm9 : m < 9 := length_headerChecks r ▸ (List.getElem?_eq_some_iff.1 hm).1
    rw [getElem?_eq_some_false_iff (by rwa [length_headerChecks]), hheader m hm9] at hm
    rw [Nat.zero_add]
    exact ⟨hm9, hm, fun j hj => (hheader j (hj.trans hm9)).1 (hbefore j hj)⟩
  · rintro ⟨hn9, hn, hbefore⟩
    refine ⟨n, (Nat.zero_add n).symm, ?_, fun j hj => (hheader j (hj.trans hn9)).2 (hbefore j hj)⟩
    rwa [getElem?_eq_some_false_iff (by rwa [length_headerChecks]), hheader n hn9]

/-- The fault of the entries, numbered from 9. -/
theorem firstFault_entryChecks_iff {n : Nat}
    (hentry : ∀ m < (entryChecks r).length, (entryChecks r)[m]? = some true ↔ G (9 + m)) :
    firstFault 9 (entryChecks r) = some n ↔
      9 ≤ n ∧ n < 9 + (entryChecks r).length ∧ ¬ G n ∧ ∀ m, 9 ≤ m → m < n → G m := by
  rw [firstFault_eq_some_iff]
  constructor
  · rintro ⟨m, rfl, hm, hbefore⟩
    have hlt := (List.getElem?_eq_some_iff.1 hm).1
    rw [getElem?_eq_some_false_iff hlt, hentry m hlt] at hm
    refine ⟨Nat.le_add_right 9 m, by omega, hm, fun j hj9 hj => ?_⟩
    have hj' := (hentry (j - 9) (by omega)).1 (hbefore (j - 9) (by omega))
    rwa [Nat.add_sub_cancel' hj9] at hj'
  · rintro ⟨hn9, hlt, hn, hbefore⟩
    refine ⟨n - 9, by omega, ?_, fun j hj => (hentry j (by omega)).2 (hbefore _ (by omega) (by omega))⟩
    rwa [getElem?_eq_some_false_iff (by omega), hentry (n - 9) (by omega), Nat.add_sub_cancel' hn9]

/-- What the fault of a record is, told by which of its fields are good. -/
theorem recordFault_iff {last : Nat} (hlast : last = 9 + (entryChecks r).length)
    (hheader : ∀ m < 9, (headerChecks r)[m]? = some true ↔ G m)
    (hentry : (∀ m < 9, G m) → ∀ m < (entryChecks r).length, (entryChecks r)[m]? = some true ↔ G (9 + m)) (n : Nat) :
    recordFault r = some n ↔ (∀ m < n, m < 9 → G m) ∧
      (n < 9 ∧ ¬ G n ∨ r.length ≠ recordLength (u1At r 16) (u1At r 17) ∧ n = last ∨
        r.length = recordLength (u1At r 16) (u1At r 17) ∧ 9 ≤ n ∧ n < last ∧ ¬ G n ∧ ∀ m < n, G m) := by
  have hcode : 15 + 3 * u1At r 16 + 10 * u1At r 17 = last := by rw [hlast, length_entryChecks]; omega
  obtain hh | ⟨k, hh⟩ := Option.eq_none_or_eq_some (firstFault 0 (headerChecks r))
  · have hall : ∀ m < 9, G m := by
      rw [firstFault_eq_none_iff, forall_mem_iff_getElem?] at hh
      exact fun m hm => (hheader m hm).1 (hh m hm)
    have hfault : recordFault r =
        if r.length = recordLength (u1At r 16) (u1At r 17) then firstFault 9 (entryChecks r) else some last := by
      rw [recordFault, hh, hcode]
    rw [hfault]
    split_ifs with hsized
    · rw [firstFault_entryChecks_iff (hentry hall), ← hlast]
      constructor
      · rintro ⟨hn9, hlt, hn, hbefore⟩
        refine ⟨fun m _ hm => hall m hm, .inr (.inr ⟨hsized, hn9, hlt, hn, fun m hm => ?_⟩)⟩
        exact (Nat.lt_or_ge m 9).elim (hall m) fun h9 => hbefore m h9 hm
      · rintro ⟨-, ⟨hn9, hn⟩ | ⟨hno, -⟩ | ⟨-, hn9, hlt, hn, hbefore⟩⟩
        · exact absurd (hall n hn9) hn
        · exact absurd hsized hno
        · exact ⟨hn9, hlt, hn, fun m _ hm => hbefore m hm⟩
    · constructor
      · intro h
        exact ⟨fun m _ hm => hall m hm, .inr (.inl ⟨hsized, (Option.some.inj h).symm⟩)⟩
      · rintro ⟨-, ⟨hn9, hn⟩ | ⟨-, rfl⟩ | ⟨hs, -⟩⟩
        · exact absurd (hall n hn9) hn
        · rfl
        · exact absurd hs hsized
  · have hfault : recordFault r = some k := by rw [recordFault, hh]
    obtain ⟨hk9, hk, hbefore⟩ := (firstFault_headerChecks_iff hheader).1 hh
    rw [hfault]
    constructor
    · intro h
      obtain rfl := Option.some.inj h
      exact ⟨fun m hm _ => hbefore m hm, .inl ⟨hk9, hk⟩⟩
    · rintro ⟨hgood, hcases⟩
      have hle : n ≤ k := by
        by_contra hlt
        exact hk (hgood k (Nat.not_le.1 hlt) hk9)
      obtain ⟨hn9, hn⟩ | ⟨-, rfl⟩ | ⟨-, hn9, -⟩ := hcases
      · by_contra hne
        exact hn (hbefore n (lt_of_le_of_ne hle fun h => hne (by rw [h])))
      · omega
      · omega

/-- A record without a fault has its length, and every field of it is good. -/
theorem recordFault_eq_none_iff_good {last : Nat} (hlast : last = 9 + (entryChecks r).length)
    (hheader : ∀ m < 9, (headerChecks r)[m]? = some true ↔ G m)
    (hentry : (∀ m < 9, G m) → ∀ m < (entryChecks r).length, (entryChecks r)[m]? = some true ↔ G (9 + m)) :
    recordFault r = none ↔ r.length = recordLength (u1At r 16) (u1At r 17) ∧ ∀ m < last, G m := by
  rw [recordFault_eq_none_iff, forall_mem_iff_getElem?, forall_mem_iff_getElem?, length_headerChecks]
  constructor
  · rintro ⟨hh, hsized, he⟩
    have hall : ∀ m < 9, G m := fun m hm => (hheader m hm).1 (hh m hm)
    refine ⟨hsized, fun m hm => (Nat.lt_or_ge m 9).elim (hall m) fun h9 => ?_⟩
    have h := (hentry hall (m - 9) (by omega)).1 (he _ (by omega))
    rwa [Nat.add_sub_cancel' h9] at h
  · rintro ⟨hsized, hgood⟩
    have hall : ∀ m < 9, G m := fun m hm => hgood m (by omega)
    exact ⟨fun m hm => (hheader m hm).2 (hall m hm), hsized, fun m hm => (hentry hall m hm).2 (hgood _ (by omega))⟩

end

/-! ### STORE -/

section
variable {s : State} {f : Frame} {rest : List Frame} {k : SlotNo} {b : Byte} {r : List Byte}

theorem serveKind_store_of_canTake (htake : CanTake s f rest) (hkind : f.kind = 0x10) (hbody : f.body = b :: r) (hmin : 32 ≤ r.length)
    (hmax : r.length ≤ 464) : serveKind .store ownStore s = ownStore f (s.takenInFlight rest) := by
  have hlen : Kind.store.lengthOk f.body = true := by
    simp only [Kind.lengthOk, hbody, List.length_cons, decide_eq_true_eq]
    omega
  exact serveKind_of_servedInSetup htake (by rw [hkind]; rfl) hlen rfl (by decide)

/-- A STORE that leaves the library is taken as it is. -/
theorem exec_store_of_library {st : Status} {body : List Byte} (htake : CanTake s f rest) (hkind : f.kind = 0x10)
    (hbody : f.body = b :: r) (hmin : 32 ≤ r.length) (hmax : r.length ≤ 464)
    (hown : ownStore f (s.takenInFlight rest) = s.replied f rest st body) : exec .store s = .next (s.replied f rest st body) := by
  have hserve := (serveKind_store_of_canTake htake hkind hbody hmin hmax).trans hown
  rw [exec_store, State.libraryRequest_of_library (by rw [hserve]; rfl), hserve]

theorem ownStore_of_bad_slot (hbody : f.body = b :: r) (hb : 64 ≤ b.toNat) :
    ownStore f (s.takenInFlight rest) = s.replied f rest .badArg [b] := by
  have hbyte : byteAt f.body 0 = b := by rw [hbody]; rfl
  simp only [ownStore, hbyte, slotOf_eq_none hb]
  rfl

theorem ownStore_of_guarded (hbody : f.body = slotByte k :: r) (h : (s.libSlot k).guarded = true) :
    ownStore f (s.takenInFlight rest) = s.replied f rest .protectedSlot [slotByte k] := by
  have hbyte : byteAt f.body 0 = slotByte k := by rw [hbody]; rfl
  simp only [ownStore, hbyte, slotOf_slotByte, State.takenInFlight_libSlot, h, if_true]
  rfl

theorem ownStore_of_fault {n : Nat} (hbody : f.body = slotByte k :: r) (h : (s.libSlot k).guarded = false) (hfault : recordFault r = some n) :
    ownStore f (s.takenInFlight rest) = s.replied f rest .badRecord (slotByte k :: beBytes 2 n) := by
  have hbyte : byteAt f.body 0 = slotByte k := by rw [hbody]; rfl
  have hdrop : f.body.drop 1 = r := by rw [hbody]; rfl
  have hcheck : checkRecord r = .error n := by rw [checkRecord, hfault]
  simp only [ownStore, hbyte, slotOf_slotByte, State.takenInFlight_libSlot, h, hdrop, hcheck, Bool.false_eq_true, if_false]
  rfl

end

/-- Settles O13: the field index by the place of each check, then the checks of STORE in their order. -/
theorem storeChecksThenWrites : Obligations.StoreChecksThenWrites := by
  refine ⟨fun r hmin hmax => ?_, fun s f rest b r htake hkind hbody hmin hmax => ⟨fun hb => ?_, ?_⟩⟩
  · intro nl nt b c header line tap lfo good sized
    have hheader : ∀ m < 9, (headerChecks r)[m]? = some true ↔ good m := by
      intro m hm
      rw [headerChecks_getElem?_iff hmin hm]
      simp only [good, if_pos hm]
      interval_cases m <;> rfl
    have hentry : (∀ m < 9, good m) → ∀ m < (entryChecks r).length, (entryChecks r)[m]? = some true ↔ good (9 + m) := by
      intro hall m hm
      have hnl : 1 ≤ nl ∧ nl ≤ 8 := hall 1 (by decide)
      rw [length_entryChecks] at hm
      have h9 : ¬ 9 + m < 9 := by omega
      by_cases hline : m < nl * 3
      · have hb : 9 + m < b := by omega
        have hk : m % 3 < 3 := Nat.mod_lt _ (by decide)
        rw [entryChecks_line hline]
        simp only [good, if_neg h9, if_pos hb, Nat.add_sub_cancel_left, lineOffset]
        obtain ⟨h0, h1, h2⟩ := lineChecks_iff (r := r) (o := 32 + 4 * (m / 3))
        generalize m % 3 = q at hk ⊢
        interval_cases q
        · exact h0
        · exact h1
        · exact h2
      · by_cases htap : m - nl * 3 < nt * 10
        · have hb : ¬ 9 + m < b := by omega
          have hc : 9 + m < c := by omega
          have hsub : 9 + m - b = m - nl * 3 := by omega
          have hk : (m - nl * 3) % 10 < 10 := Nat.mod_lt _ (by decide)
          rw [entryChecks_tap (Nat.not_lt.1 hline) htap, tapChecks_iff hnl.2 hk]
          simp only [good, if_neg h9, if_neg hb, if_pos hc, hsub, tapOffset]
          generalize (m - nl * 3) % 10 = q at hk ⊢
          interval_cases q <;> rfl
        · have hb : ¬ 9 + m < b := by omega
          have hc : ¬ 9 + m < c := by omega
          have hsub : 9 + m - c = m - nl * 3 - nt * 10 := by omega
          have hq : m - nl * 3 - nt * 10 < 6 := by omega
          rw [entryChecks_lfo (Nat.not_lt.1 hline) (Nat.not_lt.1 htap) hq]
          simp only [good, if_neg h9, if_neg hb, if_neg hc, hsub, lfoOffset]
          obtain ⟨h0, h1, h2⟩ := lfoChecks_iff (r := r) (o := 32 + 4 * nl + 12 * nt + 8 * ((m - nl * 3 - nt * 10) / 3))
          have hk : (m - nl * 3 - nt * 10) % 3 < 3 := Nat.mod_lt _ (by decide)
          generalize (m - nl * 3 - nt * 10) % 3 = q at hk ⊢
          interval_cases q
          · exact h0
          · exact h1
          · exact ⟨fun _ => trivial, fun _ => h2⟩
    have hlast : c + 6 = 9 + (entryChecks r).length := by
      rw [length_entryChecks]
      omega
    exact ⟨recordFault_eq_none_iff_good hlast hheader hentry, recordFault_iff hlast hheader hentry⟩
  · exact exec_store_of_library htake hkind hbody hmin hmax (ownStore_of_bad_slot hbody hb)
  · rintro k rfl
    refine ⟨fun hguard => ?_, fun hopen n hfault => ?_, fun hopen hfault => ?_⟩
    · exact exec_store_of_library htake hkind hbody hmin hmax (ownStore_of_guarded hbody hguard)
    · exact exec_store_of_library htake hkind hbody hmin hmax (ownStore_of_fault hbody hopen hfault)
    · obtain ⟨-, -, hentries⟩ := recordFault_eq_none_iff.1 hfault
      obtain ⟨p, hp⟩ := exists_programOf hentries
      have hrec : checkRecord r = .ok ⟨r, p⟩ := by simp only [checkRecord, hfault, hp]
      refine ⟨p, hp, ?_⟩
      intro seen
      have hwrite (u : State) (hu : CanTake u f rest) (hlib : u.library = s.library) :
          serveKind .store ownStore u = State.replied f rest .ok [slotByte k] (u.setLibSlot k ⟨some ⟨r, p⟩, false⟩) :=
        serveKind_store_of_accepted hu hkind hbody hmin hmax (by rwa [State.libSlot, hlib]) hrec
      have hseen : s.libSlot k ≠ ⟨some ⟨r, p⟩, false⟩ ↔ (s.libSlot k).record ≠ some ⟨r, p⟩ := not_congr (LibSlot.eq_iff_of_open hopen)
      obtain ⟨hunseen, hdue⟩ := State.libraryRequest_of_write htake hwrite
      rw [hseen] at hunseen hdue
      exact ⟨fun h => congrArg Host.Outcome.next (hunseen h),
        fun h hlink => ⟨s.applyCue, rfl, s.applyCue_library, congrArg Host.Outcome.next (hdue h hlink)⟩⟩

end Sys2Proof.Machine
end

section
/-! The record of a program (R204): its layout read field by field, and its passage through STORE's checks: obligation O15. -/

namespace Sys2Proof.Machine

/-! ### Fields in a row -/

/-- Fields of given widths and values, one after the other. -/
def fieldBytes (fs : List (Nat × Nat)) : List Byte :=
  fs.flatMap fun x => beBytes x.1 x.2

/-- How many bytes the fields take. -/
def fieldWidth (fs : List (Nat × Nat)) : Nat :=
  (fs.map Prod.fst).sum

theorem length_fieldBytes (fs : List (Nat × Nat)) : (fieldBytes fs).length = fieldWidth fs := by
  simp [fieldBytes, fieldWidth, List.length_flatMap, beBytes_length]

section
variable {r rest : List Byte} {o : Nat}

/-- A field read at its place in a row of fields that starts at an offset. -/
theorem uAt_field {fs : List (Nat × Nat)} {k n : Nat} (h : r.drop o = fieldBytes fs ++ rest) (j : Nat) (hj : fs[j]? = some (k, n))
    (hn : n < 256 ^ k) : uAt k r (o + fieldWidth (fs.take j)) = n := by
  have hfs : fs = fs.take j ++ (k, n) :: fs.drop (j + 1) := by
    obtain ⟨hlt, hget⟩ := List.getElem?_eq_some_iff.1 hj
    rw [← hget, List.getElem_cons_drop, List.take_append_drop]
  have hsplit : fieldBytes fs = fieldBytes (fs.take j) ++ (beBytes k n ++ fieldBytes (fs.drop (j + 1))) := by
    conv_lhs => rw [hfs]
    simp only [fieldBytes, List.flatMap_append, List.flatMap_cons]
  rw [uAt, ← List.drop_drop, h, hsplit, ← length_fieldBytes, List.append_assoc, List.drop_left, List.append_assoc,
    List.take_left' (beBytes_length k n), beVal_beBytes, Nat.mod_eq_of_lt hn]

theorem s2At_of_uAt {v : Int} (h : uAt 2 r o = (BitVec.ofInt 16 v).toNat) (hlo : -32768 ≤ v) (hhi : v ≤ 32767) : s2At r o = v := by
  rw [s2At, h, BitVec.ofNat_toNat, BitVec.setWidth_eq]
  exact BitVec.toInt_ofInt_eq_self (by decide) hlo (by omega)

/-- Entries of one width, the list read from one of them on. -/
theorem drop_flatMap_entries {α : Type} {g : α → List Byte} {w : Nat} {l : List α} {j : Nat} {x : α} {pre post : List Byte}
    (hg : ∀ y ∈ l, (g y).length = w) (hj : l[j]? = some x) :
    (pre ++ (l.flatMap g ++ post)).drop (pre.length + w * j) = g x ++ ((l.drop (j + 1)).flatMap g ++ post) := by
  have hl : l = l.take j ++ x :: l.drop (j + 1) := by
    obtain ⟨hlt, hget⟩ := List.getElem?_eq_some_iff.1 hj
    rw [← hget, List.getElem_cons_drop, List.take_append_drop]
  have hlen : ((l.take j).flatMap g).length = w * j := by
    have hlt := (List.getElem?_eq_some_iff.1 hj).1
    have hmap : (l.take j).map (fun y => (g y).length) = (l.take j).map fun _ => w :=
      List.map_congr_left fun y hy => hg y (List.mem_of_mem_take hy)
    rw [List.length_flatMap, hmap, List.map_const', List.sum_replicate, List.length_take, min_eq_left hlt.le]
    simp [Nat.mul_comm]
  have hsplit : l.flatMap g = (l.take j).flatMap g ++ (g x ++ (l.drop (j + 1)).flatMap g) := by
    conv_lhs => rw [hl]
    simp only [List.flatMap_append, List.flatMap_cons]
  rw [← List.drop_drop, List.drop_left, hsplit, List.append_assoc, ← hlen, List.drop_left, List.append_assoc]

/-! ### Entries (R204) -/

theorem LineProg.bytes_eq (l : LineProg) : l.bytes = fieldBytes [(1, l.placement.code), (1, l.length), (1, l.feed.code), (1, 0)] := by
  simp only [LineProg.bytes, fieldBytes, u1, List.flatMap_cons, List.flatMap_nil, List.append_nil, List.append_assoc]

theorem TapProg.bytes_eq (t : TapProg) :
    t.bytes = fieldBytes [(2, (BitVec.ofInt 16 t.gain).toNat), (2, t.depth), (2, t.damp),
      (4, t.source.code * 2 ^ 30 + t.dest.code * 2 ^ 26 + t.fixed),
      (2, t.line * 2 ^ 13 + t.lfo.code * 2 ^ 11 + (if t.hold then 1 else 0) * 2 ^ 9 + t.ticks)] := by
  simp only [TapProg.bytes, fieldBytes, s2, u2, u4, List.flatMap_cons, List.flatMap_nil, List.append_nil, List.append_assoc]

theorem LfoProg.bytes_eq (l : LfoProg) : l.bytes = fieldBytes [(2, l.rate), (1, l.shape.code), (2, l.phase), (3, 0)] := by
  simp only [LfoProg.bytes, fieldBytes, u1, u2, List.flatMap_cons, List.flatMap_nil, List.append_nil, List.append_assoc]

theorem placementOf_code (x : Placement) : placementOf x.code = some x := by
  cases x <;> rfl

theorem feedOf_code (x : Feed) : feedOf x.code = some x := by
  cases x <;> rfl

theorem sourceOf_code (x : Source) : sourceOf x.code = some x := by
  cases x <;> rfl

theorem lfoSelOf_code (x : LfoSel) : lfoSelOf x.code = some x := by
  cases x <;> rfl

theorem shapeOf_code (x : Shape) : shapeOf x.code = some x := by
  cases x <;> rfl

theorem Dest.code_le {d : Dest} {nl : Nat} (hnl : nl ≤ 8) (h : d.wf nl) : d.code ≤ 9 := by
  cases d with
  | line k => exact (Nat.lt_of_lt_of_le h hnl).le.trans (by decide)
  | outA | outB => decide

theorem destOf_code {d : Dest} {nl : Nat} (hnl : nl ≤ 8) (h : d.wf nl) : destOf d.code = some d := by
  cases d with
  | line k => exact if_pos (Nat.lt_of_lt_of_le h hnl)
  | outA | outB => rfl

/-- A line entry reads back. -/
theorem lineProgAt_of_bytes {l : LineProg} (h : r.drop o = l.bytes ++ rest) (hl : l.wf) : lineProgAt r o = some l := by
  rw [LineProg.bytes_eq] at h
  have hcode : l.placement.code < 256 ^ 1 := by cases l.placement <;> decide
  have hfeed : l.feed.code < 256 ^ 1 := by cases l.feed <;> decide
  have hlen : l.length < 256 ^ 1 := by
    obtain ⟨-, hmax⟩ := hl
    split at hmax <;> omega
  have h0 : uAt 1 r o = l.placement.code := uAt_field h 0 rfl hcode
  have h1 : uAt 1 r (o + 1) = l.length := uAt_field h 1 rfl hlen
  have h2 : uAt 1 r (o + 2) = l.feed.code := uAt_field h 2 rfl hfeed
  rw [lineProgAt_eq_some_iff, u1At_eq_uAt, u1At_eq_uAt, u1At_eq_uAt, h0, h1, h2]
  exact ⟨placementOf_code _, rfl, feedOf_code _⟩

/-- A tap entry reads back. -/
theorem tapProgAt_of_bytes {t : TapProg} {nl : Nat} (h : r.drop o = t.bytes ++ rest) (hnl : nl ≤ 8) (ht : t.wf nl) :
    tapProgAt r o = some t := by
  rw [TapProg.bytes_eq] at h
  have hsource : t.source.code ≤ 1 := by cases t.source <;> decide
  have hlfo : t.lfo.code ≤ 2 := by cases t.lfo <;> decide
  have hdest := Dest.code_le hnl ht.dest
  have hhold : (if t.hold then 1 else 0) ≤ 1 := by cases t.hold <;> decide
  obtain ⟨hline, ⟨hfixed1, hfixed2⟩, ⟨hticks1, hticks2⟩, hdepth, ⟨hgain1, hgain2⟩, hdamp, hdestWf⟩ := ht
  have h0 : uAt 2 r o = (BitVec.ofInt 16 t.gain).toNat := uAt_field h 0 rfl (BitVec.isLt _)
  have h1 : uAt 2 r (o + 2) = t.depth := uAt_field h 1 rfl (by omega)
  have h2 : uAt 2 r (o + 4) = t.damp := uAt_field h 2 rfl (by omega)
  have h3 : uAt 4 r (o + 6) = t.source.code * 2 ^ 30 + t.dest.code * 2 ^ 26 + t.fixed := uAt_field h 3 rfl (by omega)
  have h4 : uAt 2 r (o + 10) = t.line * 2 ^ 13 + t.lfo.code * 2 ^ 11 + (if t.hold then 1 else 0) * 2 ^ 9 + t.ticks :=
    uAt_field h 4 rfl (by omega)
  have hsourceAt : uAt 4 r (o + 6) / 2 ^ 30 = t.source.code := by omega
  have hdestAt : uAt 4 r (o + 6) / 2 ^ 26 % 16 = t.dest.code := by omega
  have hlfoAt : uAt 2 r (o + 10) / 2 ^ 11 % 4 = t.lfo.code := by omega
  have hholdAt : uAt 2 r (o + 10) / 2 ^ 9 % 4 = if t.hold then 1 else 0 := by omega
  rw [tapProgAt_eq_some_iff, hsourceAt, hdestAt, hlfoAt, hholdAt, h1, h2, s2At_of_uAt h0 hgain1 hgain2]
  refine ⟨rfl, rfl, rfl, sourceOf_code _, destOf_code hnl hdestWf, by omega, by omega, lfoSelOf_code _, ?_, by omega⟩
  cases t.hold <;> rfl

/-- An LFO entry reads back. -/
theorem lfoProgAt_of_bytes {l : LfoProg} (h : r.drop o = l.bytes ++ rest) (hl : l.wf) : lfoProgAt r o = some l := by
  rw [LfoProg.bytes_eq] at h
  obtain ⟨hmin, hmax, hphase⟩ := hl
  have hshape : l.shape.code < 256 ^ 1 := by cases l.shape <;> decide
  have h0 : uAt 2 r o = l.rate := uAt_field h 0 rfl (by omega)
  have h1 : uAt 1 r (o + 2) = l.shape.code := uAt_field h 1 rfl hshape
  have h2 : uAt 2 r (o + 3) = l.phase := uAt_field h 2 rfl (by omega)
  rw [lfoProgAt_eq_some_iff, u1At_eq_uAt, h0, h1, h2]
  exact ⟨rfl, shapeOf_code _, rfl⟩

/-! ### An entry that reads back passes its checks (R140) -/

theorem lineChecks_of_wf {l : LineProg} (h : lineProgAt r o = some l) (hl : l.wf) : ∀ c ∈ lineChecks r o, c = true := by
  obtain ⟨hplacement, hlength, hfeed⟩ := lineProgAt_eq_some_iff.1 h
  obtain ⟨hmin, hmax⟩ := hl
  simp only [lineChecks, List.forall_mem_cons, hplacement, hfeed, ← hlength, decide_eq_true_eq, Option.some.injEq]
  refine ⟨rfl, ⟨hmin, ?_⟩, rfl, nofun⟩
  split at hmax <;> simp_all

theorem destOk_of_wf {n nl : Nat} {d : Dest} (h : destOf n = some d) (hd : d.wf nl) : destOk nl n = true := by
  cases d with
  | line k => simpa only [destOk, h, decide_eq_true_eq] using (show k < nl from hd)
  | outA | outB => simp only [destOk, h]

theorem tapChecks_of_wf {t : TapProg} {nl : Nat} (h : tapProgAt r o = some t) (ht : t.wf nl) : ∀ c ∈ tapChecks r nl o, c = true := by
  obtain ⟨-, -, hdamp, hsource, hdest, hfixed, hline, hlfo, hhold, hticks⟩ := tapProgAt_eq_some_iff.1 h
  simp only [tapChecks, tapRawAt_eq, List.forall_mem_cons, decide_eq_true_eq, ← hdamp, ← hfixed, ← hline, ← hticks, hsource, hlfo, hhold]
  exact ⟨ht.line, rfl, ht.fixed, ht.ticks, rfl, trivial, trivial, ht.damp, destOk_of_wf hdest ht.dest, rfl, nofun⟩

theorem lfoChecks_of_wf {l : LfoProg} (h : lfoProgAt r o = some l) (hl : l.wf) : ∀ c ∈ lfoChecks r o, c = true := by
  obtain ⟨hrate, hshape, -⟩ := lfoProgAt_eq_some_iff.1 h
  obtain ⟨hmin, hmax, -⟩ := hl
  simp only [lfoChecks, List.forall_mem_cons, decide_eq_true_eq, ← hrate, hshape]
  exact ⟨⟨hmin, hmax⟩, rfl, trivial, nofun⟩

end

/-! ### The whole record -/

/-- The header of a record behind the name. -/
def headerFields (p : Program) : List (Nat × Nat) :=
  [(1, p.lines.length), (1, p.taps.length), (2, (BitVec.ofInt 16 p.inGain).toNat), (2, (BitVec.ofInt 16 p.outGain).toNat), (2, p.glide),
   (1, p.tailFloor), (1, p.quiet), (2, p.spillLimit), (4, 0)]

section
variable {p : Program}

theorem Program.record_eq (p : Program) :
    p.record = (p.name ++ fieldBytes (headerFields p)) ++ (p.lines.flatMap LineProg.bytes ++
      (p.taps.flatMap TapProg.bytes ++ (p.lfo0.bytes ++ p.lfo1.bytes))) := by
  simp only [Program.record, headerFields, fieldBytes, u1, u2, s2, List.flatMap_cons, List.flatMap_nil, List.append_nil,
    List.append_assoc]

theorem LineProg.length_bytes (l : LineProg) : l.bytes.length = 4 := by
  rw [LineProg.bytes_eq, length_fieldBytes]
  rfl

theorem TapProg.length_bytes (t : TapProg) : t.bytes.length = 12 := by
  rw [TapProg.bytes_eq, length_fieldBytes]
  rfl

theorem LfoProg.length_bytes (l : LfoProg) : l.bytes.length = 8 := by
  rw [LfoProg.bytes_eq, length_fieldBytes]
  rfl

theorem length_flatMap_lines (ls : List LineProg) : (ls.flatMap LineProg.bytes).length = 4 * ls.length := by
  simp [List.length_flatMap, LineProg.length_bytes, Nat.mul_comm]

theorem length_flatMap_taps (ts : List TapProg) : (ts.flatMap TapProg.bytes).length = 12 * ts.length := by
  simp [List.length_flatMap, TapProg.length_bytes, Nat.mul_comm]

theorem length_recordHead (hname : p.name.length = 16) : (p.name ++ fieldBytes (headerFields p)).length = 32 := by
  rw [List.length_append, hname, length_fieldBytes]
  rfl

theorem Program.length_record (hname : p.name.length = 16) : p.record.length = 32 + 4 * p.lines.length + 12 * p.taps.length + 16 := by
  rw [p.record_eq, List.length_append, length_recordHead hname, List.length_append, List.length_append, List.length_append,
    length_flatMap_lines, length_flatMap_taps, LfoProg.length_bytes, LfoProg.length_bytes]
  omega

theorem Program.drop_record (hname : p.name.length = 16) :
    p.record.drop 16 = fieldBytes (headerFields p) ++ (p.lines.flatMap LineProg.bytes ++
      (p.taps.flatMap TapProg.bytes ++ (p.lfo0.bytes ++ p.lfo1.bytes))) := by
  rw [p.record_eq, List.append_assoc, List.drop_left' hname]

theorem Program.s2At_record_inGain (hp : p.wf) : s2At p.record 18 = p.inGain := by
  have hmax := hp.inGain
  exact s2At_of_uAt (uAt_field (Program.drop_record hp.name.1) 2 rfl (BitVec.isLt _)) (by omega) (by omega)

theorem Program.s2At_record_outGain (hp : p.wf) : s2At p.record 20 = p.outGain := by
  have hmax := hp.outGain
  exact s2At_of_uAt (uAt_field (Program.drop_record hp.name.1) 3 rfl (BitVec.isLt _)) (by omega) (by omega)

/-- Every program within the limits is spelled by its record. -/
theorem Program.spelledBy_record (hp : p.wf) : SpelledBy p.record p := by
  have hname := hp.name.1
  have hhead := length_recordHead hname
  have hdrop := Program.drop_record hname
  have hinGain := Program.s2At_record_inGain hp
  have houtGain := Program.s2At_record_outGain hp
  obtain ⟨-, hlineCount, htapCount, hlines, htaps, hlfo0, hlfo1, hin, hout, hglide, hfloor, hquiet, hlimit⟩ := hp
  have h16 : u1At p.record 16 = p.lines.length := (u1At_eq_uAt _ _).trans (uAt_field hdrop 0 rfl (by omega))
  have h17 : u1At p.record 17 = p.taps.length := (u1At_eq_uAt _ _).trans (uAt_field hdrop 1 rfl (by omega))
  have h22 : uAt 2 p.record 22 = p.glide := uAt_field hdrop 4 rfl (by omega)
  have h24 : uAt 1 p.record 24 = p.tailFloor := uAt_field hdrop 5 rfl (by omega)
  have h25 : uAt 1 p.record 25 = p.quiet := uAt_field hdrop 6 rfl (by omega)
  have h26 : uAt 2 p.record 26 = p.spillLimit := uAt_field hdrop 7 rfl (by omega)
  have htail : p.record.drop (32 + 4 * p.lines.length) =
      p.taps.flatMap TapProg.bytes ++ (p.lfo0.bytes ++ p.lfo1.bytes) := by
    rw [p.record_eq, ← List.append_assoc, List.drop_left']
    rw [List.length_append, hhead, length_flatMap_lines]
  have hlfos : p.record.drop (32 + 4 * p.lines.length + 12 * p.taps.length) = p.lfo0.bytes ++ p.lfo1.bytes := by
    rw [← List.drop_drop, htail, List.drop_left' (length_flatMap_taps _)]
  constructor
  · rw [p.record_eq, List.append_assoc, List.take_left' hname]
  · exact h16.symm
  · exact h17.symm
  · intro j l hj
    refine lineProgAt_of_bytes (rest := (p.lines.drop (j + 1)).flatMap LineProg.bytes ++
      (p.taps.flatMap TapProg.bytes ++ (p.lfo0.bytes ++ p.lfo1.bytes))) ?_ (hlines l (List.mem_of_getElem? hj))
    rw [lineOffset, p.record_eq, ← hhead]
    exact drop_flatMap_entries (fun l _ => l.length_bytes) hj
  · intro k t hk
    rw [h16]
    refine tapProgAt_of_bytes (rest := (p.taps.drop (k + 1)).flatMap TapProg.bytes ++ (p.lfo0.bytes ++ p.lfo1.bytes)) ?_ hlineCount.2
      (htaps t (List.mem_of_getElem? hk))
    rw [tapOffset, ← List.drop_drop, htail]
    have := drop_flatMap_entries (pre := []) (post := p.lfo0.bytes ++ p.lfo1.bytes) (fun t _ => TapProg.length_bytes t) hk
    rwa [List.length_nil, Nat.zero_add] at this
  · rw [h16, h17]
    exact lfoProgAt_of_bytes (rest := p.lfo1.bytes) hlfos hlfo0
  · rw [h16, h17]
    refine lfoProgAt_of_bytes (rest := []) ?_ hlfo1
    rw [lfoOffset, ← List.drop_drop, hlfos, List.drop_left' (LfoProg.length_bytes _), List.append_nil]
  · rw [hinGain]
    rfl
  · rw [houtGain]
    rfl
  · exact h22.symm
  · rw [u1At_eq_uAt, h24]
  · rw [u1At_eq_uAt, h25]
  · exact h26.symm

/-- A program within the limits is spelled by a record that passes STORE's checks. -/
theorem SpelledBy.recordFault_eq_none {r : List Byte} (h : SpelledBy r p) (hp : p.wf)
    (hlen : r.length = 32 + 4 * p.lines.length + 12 * p.taps.length + 16) (hin : 0 ≤ s2At r 18) (hout : 0 ≤ s2At r 20) :
    recordFault r = none := by
  rw [recordFault_eq_none_iff]
  refine ⟨?_, ?_, ?_⟩
  · rw [headerChecks_iff (by omega), ← h.name, ← h.lineCount, ← h.tapCount, ← h.tailFloor, ← h.quiet, ← h.spillLimit]
    exact ⟨hp.name, hp.lineCount, hp.tapCount, hin, hout, hp.tailFloor, hp.quiet, hp.spillLimit.1⟩
  · rw [hlen, recordLength, ← h.lineCount, ← h.tapCount]
  · rw [forall_mem_entryChecks_iff]
    refine ⟨fun j hj => ?_, fun k hk => ?_, lfoChecks_of_wf h.lfo0 hp.lfo0, lfoChecks_of_wf h.lfo1 hp.lfo1⟩
    · rw [← h.lineCount] at hj
      exact lineChecks_of_wf (h.lines j _ (List.getElem?_eq_getElem hj)) (hp.lines _ (List.getElem_mem hj))
    · rw [← h.tapCount] at hk
      rw [← h.lineCount]
      have htap := h.taps k _ (List.getElem?_eq_getElem hk)
      rw [← h.lineCount] at htap
      exact tapChecks_of_wf htap (hp.taps _ (List.getElem_mem hk))

end

/-- Settles O15: the record spells the program, so it passes and reads back. -/
theorem recordOfProgramReadsBack : Obligations.RecordOfProgramReadsBack := by
  intro p hp
  have hspelled := Program.spelledBy_record hp
  have hlen := Program.length_record hp.name.1
  have hin : 0 ≤ s2At p.record 18 := by rw [Program.s2At_record_inGain hp]; exact Int.natCast_nonneg _
  have hout : 0 ≤ s2At p.record 20 := by rw [Program.s2At_record_outGain hp]; exact Int.natCast_nonneg _
  exact ⟨hlen, hspelled.recordFault_eq_none hp hlen hin hout, programOf_eq_some_iff.2 hspelled⟩

end Sys2Proof.Machine
end

section
/-! The fit test and the admission (R8, R16, R77, R96 to R98): obligations O25 and O26. -/

namespace Sys2Proof.Machine

/-! ### Counts (R96) -/

/-- What some instances in some states add to a count. -/
def State.addedCount (s : State) (sts : List InstState) (g : Inst → Nat) (is : List InstNo) : Nat :=
  (is.map fun i => if (s.inst i).state ∈ sts then g (s.inst i) else 0).sum

theorem countsWith_eq_addedCount (s : State) (sts : List InstState) (c : Counts) :
    s.countsWith sts c =
      { far := c.far + s.addedCount sts (fun x => x.pagesIn .far) allInsts,
        near := c.near + s.addedCount sts (fun x => x.pagesIn .near) allInsts,
        budget := c.budget + s.addedCount sts Inst.cost allInsts } := by
  unfold State.countsWith
  induction allInsts generalizing c with
  | nil => rfl
  | cons i is ih =>
    rw [List.foldl_cons, ih]
    by_cases h : (s.inst i).state ∈ sts
    · simp only [State.addedCount, if_pos h, Counts.plus, List.map_cons, List.sum_cons, Nat.add_assoc]
    · simp only [State.addedCount, if_neg h, List.map_cons, List.sum_cons, Nat.zero_add]

theorem addedCount_nil (s : State) (g : Inst → Nat) (is : List InstNo) : s.addedCount [] g is = 0 := by
  simp [State.addedCount]

/-! ### The walk of the fit test (R97) -/

theorem resolve_eq (c : Counts) (l : LineProg) (n : Nat) :
    resolve c l n =
      if l.placement = .near then .near else if l.placement = .any ∧ l.length ≤ 4 ∧ n + l.length ≤ c.near then .near else .far := by
  unfold resolve
  cases l.placement <;> simp

theorem farLineCost_eq (p : Program) (j : Nat) : farLineCost p j = 1 + 2 * (p.taps.filter fun t => t.line = j).length := by
  rw [farLineCost, List.countP_eq_length_filter]

/-- The lengths that the first n lines of a walk ask of a pool. -/
def walkSum (q : Pool) (xs : List (LineProg × Pool)) (n : Nat) : Nat :=
  ((xs.take n).map fun x => if x.2 = q then x.1.length else 0).sum

theorem walkSum_cons (q : Pool) (l : LineProg) (pool : Pool) (xs : List (LineProg × Pool)) (n : Nat) :
    walkSum q ((l, pool) :: xs) (n + 1) = (if pool = q then l.length else 0) + walkSum q xs n := by
  simp [walkSum]

theorem demandLine_near (p : Program) (j : Nat) (l : LineProg) (pool : Pool) (d : Counts) :
    (demandLine p j l pool d).near = d.near + if pool = .near then l.length else 0 := by
  cases pool <;> rfl

theorem demandLine_far (p : Program) (j : Nat) (l : LineProg) (pool : Pool) (d : Counts) :
    (demandLine p j l pool d).far = d.far + if pool = .far then l.length else 0 := by
  cases pool <;> rfl

theorem demandLine_budget (p : Program) (j : Nat) (l : LineProg) (pool : Pool) (d : Counts) :
    (demandLine p j l pool d).budget = d.budget + if pool = .far then farLineCost p j else 0 := by
  cases pool <;> rfl

section
variable (p : Program) (c : Counts)

/-- Every line is resolved by what the lines before it ask of the NEAR pool. -/
theorem fitWalk_getElem? (ls : List LineProg) : ∀ (j : Nat) (d : Counts) (k : Nat) (l : LineProg), ls[k]? = some l →
    (fitWalk p c j ls d).1[k]? = some (resolve c l (d.near + walkSum .near (ls.zip (fitWalk p c j ls d).1) k)) := by
  induction ls with
  | nil => intro j d k l h; cases h
  | cons x ls ih =>
    intro j d k l h
    cases k with
    | zero =>
      obtain rfl := Option.some.inj h
      rfl
    | succ k =>
      have hk := ih (j + 1) (demandLine p j x (resolve c x d.near) d) k l h
      simp only [fitWalk, List.getElem?_cons_succ, List.zip_cons_cons, walkSum_cons, ← Nat.add_assoc]
      rw [hk, demandLine_near]

/-- The demand of the walk by pool. -/
theorem fitWalk_pools (ls : List LineProg) : ∀ (j : Nat) (d : Counts),
    (fitWalk p c j ls d).2.near = d.near + walkSum .near (ls.zip (fitWalk p c j ls d).1) ls.length ∧
    (fitWalk p c j ls d).2.far = d.far + walkSum .far (ls.zip (fitWalk p c j ls d).1) ls.length := by
  induction ls with
  | nil => intro j d; exact ⟨rfl, rfl⟩
  | cons x ls ih =>
    intro j d
    obtain ⟨hnear, hfar⟩ := ih (j + 1) (demandLine p j x (resolve c x d.near) d)
    simp only [fitWalk, List.zip_cons_cons, List.length_cons, walkSum_cons, ← Nat.add_assoc]
    rw [hnear, hfar, demandLine_near, demandLine_far]
    exact ⟨rfl, rfl⟩

/-- The cost of the walk: one write and two reads a tap for each FAR line. -/
theorem fitWalk_budget (ls : List LineProg) : ∀ (j : Nat) (d : Counts),
    (fitWalk p c j ls d).2.budget = d.budget +
      ((List.range ls.length).map fun k => if (fitWalk p c j ls d).1[k]? = some .far then farLineCost p (j + k) else 0).sum := by
  induction ls with
  | nil => intro j d; rfl
  | cons x ls ih =>
    intro j d
    have h := ih (j + 1) (demandLine p j x (resolve c x d.near) d)
    simp only [fitWalk, List.length_cons, List.range_succ_eq_map, List.map_cons, List.map_map, List.sum_cons, List.getElem?_cons_zero,
      Option.some.injEq, Nat.add_zero, ← Nat.add_assoc]
    rw [h, demandLine_budget]
    congr 2
    refine List.map_congr_left fun k _ => ?_
    simp only [Function.comp_apply, List.getElem?_cons_succ]
    have hk : j + 1 + k = j + k.succ := by omega
    rw [hk]
    rfl

end

/-- Settles O25: the counts as sums over the instances, the walk line by line. -/
theorem fitTestWalksTheLines : Obligations.FitTestWalksTheLines := by
  refine ⟨fun s r hrun => ?_, fun p c => ?_⟩
  · intro added counts
    have hfree : s.freeCounts = { far := r.farFree.length, near := r.nearFree.length, budget := r.rate.budget - r.budgetInUse } := by
      simp only [State.freeCounts, hrun]
      rfl
    have hwith (sts : List InstState) : s.countsWith sts s.freeCounts = counts sts := by
      rw [countsWith_eq_addedCount, hfree]
      rfl
    refine ⟨?_, hwith _, hwith _⟩
    rw [← hwith [], countsWith_eq_addedCount]
    simp only [addedCount_nil, Nat.add_zero]
  · intro pools d sumOf
    obtain ⟨hlen, -, -⟩ := fitWalk_demand p c p.lines 0 { far := 0, near := 0, budget := 0 }
    obtain ⟨hnear, hfar⟩ := fitWalk_pools p c p.lines 0 { far := 0, near := 0, budget := 0 }
    have hbudget := fitWalk_budget p c p.lines 0 { far := 0, near := 0, budget := 0 }
    rw [Nat.zero_add] at hnear hfar hbudget
    refine ⟨hlen, fun j l hl => ?_, hnear, hfar, ?_, fits_iff p c⟩
    · have h := fitWalk_getElem? p c p.lines 0 { far := 0, near := 0, budget := 0 } j l hl
      rw [Nat.zero_add, resolve_eq] at h
      exact h
    · refine hbudget.trans (congrArg List.sum (List.map_congr_left fun j _ => ?_))
      rw [Nat.zero_add, farLineCost_eq]
      rfl

/-! ### The grant (R8) -/

/-- The grants of an instance come off the head of each free list, and are its lines' pages in line order. -/
theorem grantLines_free (i : InstNo) (q : Pool) (ls : List (Pool × Nat)) : ∀ (j : Nat) (r : Run),
    (grantLines i j ls r).2.free q = (r.free q).drop (poolDemand q ls) ∧
    ((grantLines i j ls r).1.filter fun l => l.pool = q).flatMap LineRun.pages = (r.free q).take (poolDemand q ls) := by
  induction ls with
  | nil => intro j r; exact ⟨rfl, rfl⟩
  | cons x ls ih =>
    obtain ⟨pool, k⟩ := x
    intro j r
    obtain ⟨hfree, hpages⟩ := ih (j + 1) (grantLine i j pool k r).2
    simp only [grantLines, poolDemand_cons, List.filter_cons, grantLine_line, hfree, grantLine_free]
    by_cases hq : pool = q
    · subst hq
      simp only [if_true, decide_true, List.flatMap_cons, hpages, grantLine_free, List.drop_drop, List.take_add, and_self]
    · simp only [hq, if_false, decide_false, Bool.false_eq_true, hpages, grantLine_free, Nat.zero_add, and_self]

/-- The owner entry of a page that is not granted stands. -/
theorem grantLines_owners_of_notMem (i : InstNo) (q : Pool) (ls : List (Pool × Nat)) : ∀ (j : Nat) (r : Run) (n : Nat),
    n ∉ (r.free q).take (poolDemand q ls) → ((grantLines i j ls r).2.owners q)[n]? = (r.owners q)[n]? := by
  induction ls with
  | nil => intro j r n _; rfl
  | cons x ls ih =>
    obtain ⟨pool, k⟩ := x
    intro j r n hn
    rw [poolDemand_cons] at hn
    simp only [grantLines]
    by_cases hq : pool = q
    · subst hq
      rw [if_pos rfl, List.take_add, List.mem_append, not_or] at hn
      rw [ih _ _ _ (by rw [grantLine_free, if_pos rfl]; exact hn.2), grantLine_owners, if_pos rfl, setOwners_getElem?,
        if_neg fun h => hn.1 h.1]
    · rw [if_neg hq, Nat.zero_add] at hn
      rw [ih _ _ _ (by rwa [grantLine_free, if_neg hq]), grantLine_owners, if_neg hq]

/-- A page granted to a line carries the line's owner entry. -/
theorem grantLines_owners_of_mem {s : State} {r : Run} (hs : PoolInv s) (hrun : s.run = some r) {i : InstNo}
    (hnone : (s.inst i).running = none) (q : Pool) (ls : List (Pool × Nat)) {j : Nat} {l : LineRun}
    (hl : (grantLines i 0 ls r).1[j]? = some l) (hpool : l.pool = q) {n : Nat} (hn : n ∈ l.pages) :
    ((grantLines i 0 ls r).2.owners q)[n]? = some (some ⟨i, j⟩) := by
  have hsound := (poolWf_iff s r q).1 (hs.pools r q hrun)
  have hheld (k : Nat) (_ : 0 ≤ k) : (s.inst i).pageList q k = [] := by rw [Inst.pageList_eq, hnone]; rfl
  have hgrant := PoolSound.grantLines i q ls 0 r _ _ hsound hheld
  refine (hgrant.owned n i j).1 ?_
  have hpages : linePages q (grantLines i 0 ls r).1 j = l.pages := by simp only [linePages, hl, hpool, if_true]
  simp only [setHeldFrom, Nat.zero_le, and_self, if_true, Nat.sub_zero, hpages]
  exact hn

/-- Settles O26: the grant of every line off the head of its free list, with the fields that an admission starts. -/
theorem admissionGrantsAndStarts : Obligations.AdmissionGrantsAndStarts := by
  intro s i r p hs hrun hp hnone hfits t target lfo
  have hcounts : s.freeCounts = { far := r.farFree.length, near := r.nearFree.length, budget := r.leftover } := by
    simp only [State.freeCounts, hrun]
  obtain ⟨hlen, hnearDemand, hfarDemand⟩ := fitWalk_demand p s.freeCounts p.lines 0 { far := 0, near := 0, budget := 0 }
  rw [Nat.zero_add] at hnearDemand hfarDemand
  obtain ⟨-, hnearLe, hfarLe⟩ := fitTest_demand hfits
  let ls := t.1.zip (p.lines.map LineProg.length)
  have hnear : t.2.near = poolDemand .near ls := hnearDemand
  have hfar : t.2.far = poolDemand .far ls := hfarDemand
  obtain ⟨hnearFree, hnearPages⟩ := grantLines_free i .near ls 0 r
  obtain ⟨hfarFree, hfarPages⟩ := grantLines_free i .far ls 0 r
  obtain ⟨hrate, hsize, hpol, hbudget⟩ := grantLines_keeps i ls 0 r
  have hzip : t.1.length = (p.lines.map LineProg.length).length := by rw [List.length_map]; exact hlen
  have hrun' : (grantLines i 0 ls r).2 =
      { r with nearFree := r.nearFree.drop t.2.near, farFree := r.farFree.drop t.2.far,
               nearOwner := (grantLines i 0 ls r).2.nearOwner, farOwner := (grantLines i 0 ls r).2.farOwner } := by
    rw [← hnear] at hnearFree
    rw [← hfar] at hfarFree
    generalize (grantLines i 0 ls r).2 = g at hnearFree hfarFree hrate hsize hpol hbudget
    cases g
    simp_all [Run.free]
  rw [← hnear] at hnearFree hnearPages
  rw [← hfar] at hfarFree hfarPages
  refine ⟨(grantLines i 0 ls r).1, (grantLines i 0 ls r).2.nearOwner, (grantLines i 0 ls r).2.farOwner, ?_, ?_, ?_, hnearPages, hfarPages,
    fun q => ⟨fun j l hj hpool hq => ?_, fun j l hj hpool hq => ?_, fun hq => ?_, fun hq => ?_⟩⟩
  · rw [State.admission_eq hrun hp]
    show State.modInst i (Inst.admitted r.rate s.tempo.tempo p (grantLines i 0 ls r).1 t.2.budget)
      { s with run := some { (grantLines i 0 ls r).2 with budgetInUse := (grantLines i 0 ls r).2.budgetInUse + t.2.budget } } = _
    rw [hrun']
    rfl
  · rw [grantLines_start]
    have hfst : ls.map Prod.fst = t.1 := List.map_fst_zip hzip.le
    rw [← hfst, List.map_map]
    rfl
  · rw [grantLines_pages i ls 0 r fun q => ?_]
    · exact List.map_snd_zip hzip.ge
    · cases q with
      | near => exact hnearLe.trans_eq (congrArg Counts.near hcounts)
      | far => exact hfarLe.trans_eq (congrArg Counts.far hcounts)
  · exact grantLines_owners_of_mem hs hrun hnone .near ls hj hpool hq
  · exact grantLines_owners_of_mem hs hrun hnone .far ls hj hpool hq
  · rw [hnear] at hq
    exact grantLines_owners_of_notMem i .near ls 0 r q hq
  · rw [hfar] at hq
    exact grantLines_owners_of_notMem i .far ls 0 r q hq

end Sys2Proof.Machine
end

section
/-! The release of an instance and the decisions that lead to it (R9, R16, R84, R106, R113): obligation O28. -/

namespace Sys2Proof.Machine

/-! ### The pages returned (R9) -/

theorem returnLines_free (q : Pool) (ls : List LineRun) : ∀ r : Run,
    (returnLines ls r).free q = r.free q ++ (ls.filter fun l => l.pool = q).flatMap LineRun.pages := by
  induction ls with
  | nil => intro r; exact (List.append_nil _).symm
  | cons l ls ih =>
    intro r
    show (returnLines ls (returnLine l r)).free q = _
    rw [ih, returnLine_free, List.filter_cons]
    by_cases h : l.pool = q
    · simp only [h, if_true, decide_true, List.flatMap_cons, List.append_assoc]
    · simp only [h, if_false, decide_false, Bool.false_eq_true]

/-- Every page returned is free in the owner table, and no other entry changes. -/
theorem returnLines_owners_getElem? (q : Pool) (n : Nat) (ls : List LineRun) : ∀ r : Run,
    (∀ l ∈ ls, l.pool = q → n ∈ l.pages → n < (r.owners q).length) →
    ((returnLines ls r).owners q)[n]? = if (∃ l ∈ ls, l.pool = q ∧ n ∈ l.pages) then some none else (r.owners q)[n]? := by
  induction ls with
  | nil => intro r _; simp [returnLines]
  | cons l ls ih =>
    intro r h
    have hlen : ((returnLine l r).owners q).length = (r.owners q).length := by
      rw [returnLine_owners]
      split <;> simp
    show ((returnLines ls (returnLine l r)).owners q)[n]? = _
    rw [ih _ fun l' hl' hq hn => by rw [hlen]; exact h l' (List.mem_cons_of_mem _ hl') hq hn]
    have hfirst : ((returnLine l r).owners q)[n]? = if l.pool = q ∧ n ∈ l.pages then some none else (r.owners q)[n]? := by
      rw [returnLine_owners]
      by_cases hq : l.pool = q
      · rw [if_pos hq, setOwners_getElem?]
        by_cases hn : n ∈ l.pages
        · rw [if_pos ⟨hn, h l (List.mem_cons_self ..) hq hn⟩, if_pos ⟨hq, hn⟩]
        · rw [if_neg fun h => hn h.1, if_neg fun h => hn h.2]
      · rw [if_neg hq, if_neg fun h => hq h.1]
    have hcons : (∃ l' ∈ l :: ls, l'.pool = q ∧ n ∈ l'.pages) ↔
        (l.pool = q ∧ n ∈ l.pages) ∨ ∃ l' ∈ ls, l'.pool = q ∧ n ∈ l'.pages := by
      simp only [List.mem_cons, exists_eq_or_imp]
    rw [hfirst]
    simp only [hcons]
    by_cases hrest : ∃ l ∈ ls, l.pool = q ∧ n ∈ l.pages
    · simp only [hrest, if_true, or_true]
    · simp only [hrest, if_false, or_false]

/-! ### The release (R84) -/

section
variable {s : State} {i : InstNo} {r : Run} {x : Inst} {y : Running}

theorem State.setInst_setInst (s : State) (i : InstNo) (x z : Inst) : (s.setInst i x).setInst i z = s.setInst i z := by
  simp only [State.setInst, Vector.set_set]

/-- The pool after a release, written out. -/
theorem Run.takeBack_eq (hy : x.running = some y) :
    r.takeBack x =
      { r with nearFree := r.nearFree ++ (y.lines.filter fun l => l.pool = .near).flatMap LineRun.pages,
               farFree := r.farFree ++ (y.lines.filter fun l => l.pool = .far).flatMap LineRun.pages,
               nearOwner := (returnLines y.lines r).nearOwner, farOwner := (returnLines y.lines r).farOwner,
               budgetInUse := r.budgetInUse - y.cost } := by
  have hnear := returnLines_free .near y.lines r
  have hfar := returnLines_free .far y.lines r
  obtain ⟨hrate, hsize, hpol, -⟩ := returnLines_keeps y.lines r
  rw [Run.takeBack_some hy]
  generalize returnLines y.lines r = g at hnear hfar hrate hsize hpol ⊢
  cases g
  simp_all [Run.free]

/-- A release of an instance whose context has just been changed otherwise. -/
theorem releaseInst_setInst (hrun : s.run = some r) (hx : x.running = some y) :
    (s.setInst i x).releaseInst i = State.headService (State.raise (.released i) (State.setInst i
      { x with state := .ready, running := none, decision := none, releaseDue := false }
      { s with spill := s.spill.erase i,
               run := some { r with nearFree := r.nearFree ++ (y.lines.filter fun l => l.pool = .near).flatMap LineRun.pages,
                                    farFree := r.farFree ++ (y.lines.filter fun l => l.pool = .far).flatMap LineRun.pages,
                                    nearOwner := (returnLines y.lines r).nearOwner, farOwner := (returnLines y.lines r).farOwner,
                                    budgetInUse := r.budgetInUse - y.cost } })) := by
  have hmap : s.run.map (Run.takeBack ((s.setInst i x).inst i)) = some (r.takeBack x) := by
    rw [hrun, State.setInst_inst_self]
    rfl
  have hinst : ({ s.setInst i x with run := s.run.map (Run.takeBack ((s.setInst i x).inst i)), spill := s.spill.erase i } : State).inst i = x :=
    State.setInst_inst_self i x s
  rw [State.releaseInst, State.setInst_run, State.setInst_spill, State.modInst, hinst, hmap, Run.takeBack_eq hx]
  refine congrArg (fun t => State.headService (State.raise (.released i) t)) ?_
  exact State.setInst_setInst { s with run := _, spill := _ } i x _

/-- A cut of an instance whose context has just been changed otherwise. -/
theorem toCutting_setInst (why : StopReason) :
    (s.setInst i x).toCutting i why = State.setInst i { x with state := .cutting, stopReason := why, decision := none, releaseDue := false }
      { s with spill := s.spill.erase i } := by
  have hinst : ({ s.setInst i x with spill := s.spill.erase i } : State).inst i = x := State.setInst_inst_self i x s
  rw [State.toCutting, State.setInst_spill, State.modInst, hinst]
  exact State.setInst_setInst { s with spill := s.spill.erase i } i x _

/-- The owner table of a pool after the release: free where the instance held. -/
theorem owners_after_release (hs : PoolInv s) (hrun : s.run = some r) (hy : (s.inst i).running = some y) (q : Pool) (n : Nat) :
    ((returnLines y.lines r).owners q)[n]? =
      if (∃ l ∈ y.lines, l.pool = q ∧ n ∈ l.pages) then some none else (r.owners q)[n]? := by
  refine returnLines_owners_getElem? q n y.lines r fun l hl hq hn => ?_
  have hsound := (poolWf_iff s r q).1 (hs.pools r q hrun)
  rw [hsound.tableSize]
  exact hq ▸ hs.page_lt hrun hy hl hn

theorem exec_release (s : State) (i : InstNo) : exec (.release i) s = .next (s.cutRelease i) := rfl
theorem exec_tailDecision (s : State) (i : InstNo) : exec (.tailDecision i) s = .next (s.tailDecision i) := rfl

end

/-- Settles O28: each event by what has been reported and by the state it finds. -/
theorem releaseAndTailDecision : Obligations.ReleaseAndTailDecision := by
  intro s i r y hs hrun hy
  refine ⟨(returnLines y.lines r).nearOwner, (returnLines y.lines r).farOwner, owners_after_release hs hrun hy .near,
    owners_after_release hs hrun hy .far, ?_⟩
  intro released
  refine ⟨fun hdue => ?_, fun hdue hstate => ?_, fun hdue hstate => ?_, fun hnone => ?_, fun d hd hstate => ?_, fun hd hstate => ?_,
    fun hd hstate => ?_⟩
  · rw [exec_release, State.cutRelease, if_neg (by rw [hdue]; exact Bool.false_ne_true)]
  · rw [exec_release, State.cutRelease, if_pos hdue, if_neg hstate]
    rfl
  · rw [exec_release, State.cutRelease, if_pos hdue, if_pos hstate]
    exact congrArg Host.Outcome.next (releaseInst_setInst (x := { s.inst i with releaseDue := false }) hrun hy)
  · rw [exec_tailDecision, State.tailDecision, hnone]
  · rw [exec_tailDecision, State.tailDecision, hd]
    exact congrArg Host.Outcome.next (if_neg hstate)
  · rw [exec_tailDecision, State.tailDecision, hd]
    refine congrArg Host.Outcome.next ((if_pos hstate).trans ?_)
    exact releaseInst_setInst (x := { s.inst i with decision := none }) hrun hy
  · rw [exec_tailDecision, State.tailDecision, hd]
    refine congrArg Host.Outcome.next ((if_pos hstate).trans ?_)
    exact congrArg (State.raise (.limit i)) (toCutting_setInst (x := { s.inst i with decision := none }) .limit)

end Sys2Proof.Machine
end

section
/-! Head service (R101 to R105): obligation O27. -/

namespace Sys2Proof.Machine

section
variable {s t u : State} {i j : InstNo}

theorem InstancesInv.quiet {a : Instr} (h : Quiet a s t) (hs : InstancesInv s) : InstancesInv t :=
  h.moves.keeps (fun hm hi => hm.instancesInv hi) hs

/-! ### One steal (R104) -/

theorem State.steal_inst (s : State) (j k : InstNo) :
    (s.steal j).inst k =
      if k = j then { s.inst j with state := .cutting, stopReason := .stolen, decision := none, releaseDue := false } else s.inst k :=
  State.toCutting_inst j k .stolen s

theorem State.instFits_congr {c : Counts} (h : (t.inst i).program = (s.inst i).program) : t.instFits i c = s.instFits i c := by
  unfold State.instFits
  rw [h]

theorem State.steal_program (s : State) (j k : InstNo) : ((s.steal j).inst k).program = (s.inst k).program := by
  rw [State.steal_inst]
  split
  · next h => rw [h]
  · rfl

/-- A tail that is cut adds what it holds to what the CUTTING instances hold. -/
theorem addedCount_steal {g : Inst → Nat} (hstate : (s.inst j).state = .spilling) (hg : g ((s.steal j).inst j) = g (s.inst j)) :
    (s.steal j).addedCount [.cutting] g allInsts = s.addedCount [.cutting] g allInsts + g (s.inst j) := by
  have hcut : ((s.steal j).inst j).state = .cutting := by rw [State.steal_inst, if_pos rfl]
  have hsum := sum_allInsts_update (f := fun k => if (s.inst k).state ∈ [InstState.cutting] then g (s.inst k) else 0)
    (g := fun k => if ((s.steal j).inst k).state ∈ [InstState.cutting] then g ((s.steal j).inst k) else 0) j
    (fun k hk => by rw [State.steal_inst, if_neg hk])
  simpa [State.addedCount, hstate, hcut, hg] using hsum

/-- The counts that the next head is tested against after a steal (R103). -/
theorem enlargedCounts_steal (hstate : (s.inst j).state = .spilling) : (s.steal j).enlargedCounts = s.enlargedCounts.plus (s.inst j) := by
  have hrunning : ((s.steal j).inst j).running = (s.inst j).running := by rw [State.steal_inst, if_pos rfl]
  have hpages (q : Pool) : ((s.steal j).inst j).pagesIn q = (s.inst j).pagesIn q := by rw [Inst.pagesIn, hrunning, Inst.pagesIn]
  have hcost : ((s.steal j).inst j).cost = (s.inst j).cost := by rw [Inst.cost, hrunning, Inst.cost]
  have hfree : (s.steal j).freeCounts = s.freeCounts := rfl
  simp only [State.enlargedCounts, countsWith_eq_addedCount, hfree, Counts.plus]
  rw [addedCount_steal (g := fun x => x.pagesIn .far) hstate (hpages .far),
    addedCount_steal (g := fun x => x.pagesIn .near) hstate (hpages .near), addedCount_steal (g := Inst.cost) hstate hcost]
  simp only [Nat.add_assoc]

theorem State.steal_spill {rest : List InstNo} (h : s.spill = j :: rest) : (s.steal j).spill = rest := by
  show s.spill.erase j = rest
  rw [h, List.erase_cons_head]

/-! ### Steals in a row (R103, R104) -/

/-- The state after the oldest n tails are stolen. -/
def State.stolen : Nat → State → State
  | 0, s => s
  | n + 1, s =>
    match s.spill with
    | [] => s
    | j :: _ => (s.steal j).stolen n

theorem State.stolen_succ {rest : List InstNo} (h : s.spill = j :: rest) (n : Nat) : s.stolen (n + 1) = (s.steal j).stolen n := by
  simp only [State.stolen, h]

/-- The tails stolen one after the other, each off the head of the list. -/
theorem State.stolen_eq_foldl (n : Nat) : ∀ s : State,
    (s.spill.take n).foldl (fun t j => State.raise (.stolen j) (State.setInst j
      { t.inst j with state := .cutting, stopReason := .stolen, decision := none, releaseDue := false }
      { t with spill := t.spill.tail })) s = s.stolen n := by
  induction n with
  | zero => exact fun _ => rfl
  | succ n ih =>
    intro s
    cases h : s.spill with
    | nil =>
      show s = s.stolen (n + 1)
      simp only [State.stolen, h]
    | cons j rest =>
      have hsteal : State.raise (.stolen j) (State.setInst j
          { s.inst j with state := .cutting, stopReason := .stolen, decision := none, releaseDue := false }
          { s with spill := s.spill.tail }) = s.steal j := by
        have htail : s.spill.tail = s.spill.erase j := by rw [h, List.tail_cons, List.erase_cons_head]
        rw [htail]
        rfl
      rw [List.take_succ_cons, List.foldl_cons, hsteal, State.stolen_succ h, ← ih, State.steal_spill h]

theorem InstancesInv.steal {rest : List InstNo} (hs : InstancesInv s) (h : s.spill = j :: rest) : InstancesInv (s.steal j) :=
  hs.quiet (quiet_steal (c := .go) (h ▸ List.mem_cons_self))

/-- The steals end at the first number of them that makes room. -/
theorem stealUntil_of_first (i : InstNo) (n : Nat) : ∀ s : State, InstancesInv s → n ≤ s.spill.length →
    (∀ m < n, s.instFits i (s.stolen m).enlargedCounts = false) → s.instFits i (s.stolen n).enlargedCounts = true →
    stealUntil i s.spill.length s.enlargedCounts s = (true, s.stolen n) := by
  induction n with
  | zero => exact fun s _ _ _ hfit => stealUntil_of_fits _ hfit
  | succ n ih =>
    intro s hs hn hbefore hfit
    have hne : s.spill ≠ [] := by
      intro h
      simp [h] at hn
    obtain ⟨j, rest, hspill⟩ := List.exists_cons_of_ne_nil hne
    have hstate : (s.inst j).state = .spilling := (hs.spilling j).1 (hspill ▸ List.mem_cons_self)
    have hno : ¬ s.instFits i s.enlargedCounts = true := by
      rw [Bool.not_eq_true]
      exact hbefore 0 (Nat.succ_pos n)
    have hlen : s.spill.length = (s.steal j).spill.length + 1 := by rw [State.steal_spill hspill, hspill, List.length_cons]
    have hfits (c : Counts) : (s.steal j).instFits i c = s.instFits i c := State.instFits_congr (s.steal_program j i)
    rw [State.stolen_succ hspill] at hfit ⊢
    rw [hlen, stealUntil_of_cons _ hno hspill, ← enlargedCounts_steal hstate]
    refine ih (s.steal j) (hs.steal hspill) (by omega) (fun m hm => ?_) (by rwa [hfits])
    rw [hfits, ← State.stolen_succ hspill]
    exact hbefore (m + 1) (Nat.succ_lt_succ hm)

/-- Where no number of steals makes room, all the tails are stolen. -/
theorem stealUntil_of_none (i : InstNo) (n : Nat) : ∀ s : State, InstancesInv s → n = s.spill.length →
    (∀ m ≤ n, s.instFits i (s.stolen m).enlargedCounts = false) →
    stealUntil i n s.enlargedCounts s = (false, s.stolen n) := by
  induction n with
  | zero =>
    intro s _ hn hbefore
    refine stealUntil_of_nil _ ?_ (List.length_eq_zero_iff.1 hn.symm)
    rw [Bool.not_eq_true]
    exact hbefore 0 le_rfl
  | succ n ih =>
    intro s hs hn hbefore
    have hne : s.spill ≠ [] := by
      intro h
      simp [h] at hn
    obtain ⟨j, rest, hspill⟩ := List.exists_cons_of_ne_nil hne
    have hstate : (s.inst j).state = .spilling := (hs.spilling j).1 (hspill ▸ List.mem_cons_self)
    have hno : ¬ s.instFits i s.enlargedCounts = true := by
      rw [Bool.not_eq_true]
      exact hbefore 0 (Nat.zero_le _)
    have hlen : n = (s.steal j).spill.length := by
      rw [hspill, List.length_cons] at hn
      rw [State.steal_spill hspill]
      omega
    have hfits (c : Counts) : (s.steal j).instFits i c = s.instFits i c := State.instFits_congr (s.steal_program j i)
    rw [State.stolen_succ hspill, stealUntil_of_cons _ hno hspill, ← enlargedCounts_steal hstate]
    refine ih (s.steal j) (hs.steal hspill) hlen (fun m hm => ?_)
    rw [hfits, ← State.stolen_succ hspill]
    exact hbefore (m + 1) (Nat.succ_le_succ hm)

/-! ### One head (R101, R102, R105) -/

theorem State.admission_lists (i : InstNo) (s : State) : (s.admission i).queue = s.queue ∧ (s.admission i).spill = s.spill := by
  obtain h | ⟨r, p, -, -, h⟩ := State.admission_cases i s
  · rw [h]
    exact ⟨rfl, rfl⟩
  · rw [h]
    exact ⟨rfl, rfl⟩

theorem headService_of_nil (hq : s.queue = []) : s.headService = s := serveHeads_of_nil _ hq

section
variable {rest : List InstNo} (hq : s.queue = i :: rest)
include hq

theorem State.queue_erase_head : s.queue.erase i = rest := by
  rw [hq, List.erase_cons_head]

theorem State.admitHead_eq : s.admitHead i = State.raise (.admitted i) (State.admission i { s with queue := rest }) := by
  rw [State.admitHead, State.queue_erase_head hq]

theorem State.admitHead_queue : (s.admitHead i).queue = rest := by
  rw [State.admitHead_eq hq]
  show (State.admission i { s with queue := rest }).queue = rest
  exact (State.admission_lists i { s with queue := rest }).1

theorem headService_of_fits (h : s.instFits i s.freeCounts = true) : s.headService = (s.admitHead i).headService := by
  have hlen : s.queue.length = (s.admitHead i).queue.length + 1 := by rw [State.admitHead_queue hq, hq, List.length_cons]
  rw [State.headService, hlen, serveHeads_of_fits _ hq h]
  rfl

theorem State.giveUp_eq :
    s.giveUp i = State.raise (.startFailed i) (State.setInst i { s.inst i with state := .ready } { s with queue := rest }) := by
  rw [State.giveUp, State.queue_erase_head hq]
  rfl

theorem State.giveUp_queue : (s.giveUp i).queue = rest := by
  rw [State.giveUp_eq hq]
  rfl

end

theorem State.stolen_queue (n : Nat) : ∀ s : State, (s.stolen n).queue = s.queue := by
  induction n with
  | zero => exact fun _ => rfl
  | succ n ih =>
    intro s
    by_cases h : s.spill = []
    · simp only [State.stolen, h]
    · obtain ⟨j, rest, hspill⟩ := List.exists_cons_of_ne_nil h
      rw [State.stolen_succ hspill, ih]
      rfl

theorem headService_of_wait {rest : List InstNo} {n : Nat} (hs : InstancesInv s) (hq : s.queue = i :: rest)
    (h : s.instFits i s.freeCounts = false) (hn : n ≤ s.spill.length)
    (hbefore : ∀ m < n, s.instFits i (s.stolen m).enlargedCounts = false) (hfit : s.instFits i (s.stolen n).enlargedCounts = true) :
    s.headService = s.stolen n := by
  have hsteal := stealUntil_of_first i n s hs hn hbefore hfit
  rw [State.headService, hq, List.length_cons, serveHeads_of_wait _ hq (by rw [h]; exact Bool.false_ne_true) (by rw [hsteal]), hsteal]

theorem headService_of_giveUp {rest : List InstNo} (hs : InstancesInv s) (hq : s.queue = i :: rest)
    (h : s.instFits i s.freeCounts = false) (hnone : ∀ m ≤ s.spill.length, s.instFits i (s.stolen m).enlargedCounts = false) :
    s.headService = ((s.stolen s.spill.length).giveUp i).headService := by
  have hsteal := stealUntil_of_none i s.spill.length s hs rfl hnone
  have hq' : (s.stolen s.spill.length).queue = i :: rest := by rw [State.stolen_queue, hq]
  have hlen : s.queue.length = ((s.stolen s.spill.length).giveUp i).queue.length + 1 := by
    rw [State.giveUp_queue hq', hq, List.length_cons]
  rw [State.headService, hlen, serveHeads_of_giveUp _ hq (by rw [h]; exact Bool.false_ne_true) (by rw [hsteal]; exact Bool.false_ne_true),
    hsteal]
  rfl

end

/-! ### What heads leave behind -/

/-- The first m heads have left the queue and the first n tails the spill list, and nothing else has changed its context. -/
structure State.Served (s t : State) (m n : Nat) : Prop where
  queue  : t.queue = s.queue.drop m
  spill  : t.spill = s.spill.drop n
  heads  : ∀ i ∈ s.queue.take m, (t.inst i).state = .running ∨ (t.inst i).state = .ready
  tails  : ∀ i ∈ s.spill.take n, (t.inst i).state = .cutting ∧ (t.inst i).stopReason = .stolen
  others : ∀ i, i ∉ s.queue.take m → i ∉ s.spill.take n → t.inst i = s.inst i

section
variable {s t u : State} {i j : InstNo} {rest : List InstNo} {m n m' n' : Nat}

theorem State.Served.refl (s : State) : s.Served s 0 0 := ⟨rfl, rfl, nofun, nofun, fun _ _ _ => rfl⟩

/-- An instance is not in both lists (R100, R108). -/
theorem InstancesInv.not_spilling (hs : InstancesInv s) (h : i ∈ s.queue) : i ∉ s.spill := fun hi => by
  have hw := (hs.waiting i).1 h
  rw [(hs.spilling i).1 hi] at hw
  cases hw

theorem notMem_take_drop {l : List InstNo} (hl : l.Nodup) (h : i ∈ l.take m) (n : Nat) : i ∉ (l.drop m).take n := fun hi =>
  List.disjoint_take_drop hl le_rfl h (List.mem_of_mem_take hi)

theorem State.Served.trans (hs : InstancesInv s) (h1 : s.Served u m n) (h2 : u.Served t m' n') : s.Served t (m + m') (n + n') where
  queue := by rw [h2.queue, h1.queue, List.drop_drop]
  spill := by rw [h2.spill, h1.spill, List.drop_drop]
  heads i hi := by
    rw [List.take_add, List.mem_append, ← h1.queue] at hi
    obtain hi | hi := hi
    · have hq : i ∉ u.queue.take m' := by rw [h1.queue]; exact notMem_take_drop hs.queueOnce hi m'
      have hp : i ∉ u.spill.take n' := fun h => by
        rw [h1.spill] at h
        exact hs.not_spilling (List.mem_of_mem_take hi) (List.mem_of_mem_drop (List.mem_of_mem_take h))
      rw [h2.others i hq hp]
      exact h1.heads i hi
    · exact h2.heads i hi
  tails i hi := by
    rw [List.take_add, List.mem_append, ← h1.spill] at hi
    obtain hi | hi := hi
    · have hp : i ∉ u.spill.take n' := by rw [h1.spill]; exact notMem_take_drop hs.spillOnce hi n'
      have hq : i ∉ u.queue.take m' := fun h => by
        rw [h1.queue] at h
        exact hs.not_spilling (List.mem_of_mem_drop (List.mem_of_mem_take h)) (List.mem_of_mem_take hi)
      rw [h2.others i hq hp]
      exact h1.tails i hi
    · exact h2.tails i hi
  others i hq hp := by
    rw [List.take_add, List.mem_append, not_or, ← h1.queue] at hq
    rw [List.take_add, List.mem_append, not_or, ← h1.spill] at hp
    rw [h2.others i hq.2 hp.2, h1.others i hq.1 hp.1]

theorem served_steal (h : s.spill = j :: rest) : s.Served (s.steal j) 0 1 where
  queue := rfl
  spill := by rw [State.steal_spill h, h, List.drop_one, List.tail_cons]
  heads := nofun
  tails i hi := by
    rw [h, List.take_one, List.head?_cons, Option.toList_some, List.mem_singleton] at hi
    rw [State.steal_inst, if_pos hi]
    exact ⟨rfl, rfl⟩
  others i _ hi := by
    rw [h, List.take_one, List.head?_cons, Option.toList_some, List.mem_singleton] at hi
    rw [State.steal_inst, if_neg hi]

theorem served_stolen (n : Nat) : ∀ s : State, InstancesInv s → n ≤ s.spill.length → s.Served (s.stolen n) 0 n := by
  induction n with
  | zero => exact fun s _ _ => .refl s
  | succ n ih =>
    intro s hs hn
    have hne : s.spill ≠ [] := by
      intro h
      simp [h] at hn
    obtain ⟨j, rest, hspill⟩ := List.exists_cons_of_ne_nil hne
    have hlen : n ≤ (s.steal j).spill.length := by
      rw [hspill, List.length_cons] at hn
      rw [State.steal_spill hspill]
      omega
    rw [State.stolen_succ hspill, Nat.add_comm]
    exact (served_steal hspill).trans hs (ih _ (hs.steal hspill) hlen)

theorem InstancesInv.stolen (n : Nat) : ∀ {s : State}, InstancesInv s → InstancesInv (s.stolen n) := by
  induction n with
  | zero => exact fun hs => hs
  | succ n ih =>
    intro s hs
    by_cases h : s.spill = []
    · simpa only [State.stolen, h] using hs
    · obtain ⟨j, rest, hspill⟩ := List.exists_cons_of_ne_nil h
      rw [State.stolen_succ hspill]
      exact ih (hs.steal hspill)

/-- A head that fits is RUNNING behind its admission. -/
theorem served_admitHead (hs : InstancesInv s) (hq : s.queue = i :: rest) (hfits : s.instFits i s.freeCounts = true) :
    s.Served (s.admitHead i) 1 0 := by
  have hne : (s.inst i).state ≠ .empty := by rw [(hs.waiting i).1 (hq ▸ List.mem_cons_self)]; decide
  have hrun : s.run ≠ none := fun h => hne (hs.setup h i)
  obtain ⟨r, p, -, -, -, heq⟩ := State.admission_of_fits (q := rest) hrun hfits
  have hinst (k : InstNo) : (s.admitHead i).inst k =
      if k = i then Inst.admitted r.rate s.tempo.tempo p
        (grantLines i 0 ((fitTest p s.freeCounts).1.zip (p.lines.map LineProg.length)) r).1 (fitTest p s.freeCounts).2.budget (s.inst i)
      else s.inst k := by
    rw [State.admitHead_eq hq, heq]
    exact State.modInst_inst i k _ _
  refine ⟨?_, ?_, fun k hk => ?_, nofun, fun k hk _ => ?_⟩
  · rw [State.admitHead_queue hq, hq, List.drop_one, List.tail_cons]
  · rw [State.admitHead_eq hq]
    exact (State.admission_lists i { s with queue := rest }).2
  · rw [hq, List.take_one, List.head?_cons, Option.toList_some, List.mem_singleton] at hk
    rw [hinst, if_pos hk]
    exact .inl rfl
  · rw [hq, List.take_one, List.head?_cons, Option.toList_some, List.mem_singleton] at hk
    rw [hinst, if_neg hk]

/-- A head that is given up is READY. -/
theorem served_giveUp (hq : s.queue = i :: rest) : s.Served (s.giveUp i) 1 0 := by
  have hinst (k : InstNo) : (s.giveUp i).inst k = if k = i then { s.inst i with state := .ready } else s.inst k := by
    rw [State.giveUp_eq hq]
    exact State.setInst_inst i k _ _
  refine ⟨?_, ?_, fun k hk => ?_, nofun, fun k hk _ => ?_⟩
  · rw [State.giveUp_queue hq, hq, List.drop_one, List.tail_cons]
  · rw [State.giveUp_eq hq]
    rfl
  · rw [hq, List.take_one, List.head?_cons, Option.toList_some, List.mem_singleton] at hk
    rw [hinst, if_pos hk]
    exact .inr rfl
  · rw [hq, List.take_one, List.head?_cons, Option.toList_some, List.mem_singleton] at hk
    rw [hinst, if_neg hk]

/-- A state whose head, where there is one, waits for a cut: it does not fit yet and fits with every CUTTING holding. -/
def State.HeadWaits (s : State) : Prop :=
  ∀ i rest, s.queue = i :: rest → s.instFits i s.freeCounts = false ∧ s.instFits i s.enlargedCounts = true

theorem State.stolen_freeCounts (n : Nat) : ∀ s : State, (s.stolen n).freeCounts = s.freeCounts := by
  induction n with
  | zero => exact fun _ => rfl
  | succ n ih =>
    intro s
    by_cases h : s.spill = []
    · simp only [State.stolen, h]
    · obtain ⟨j, rest, hspill⟩ := List.exists_cons_of_ne_nil h
      rw [State.stolen_succ hspill, ih]
      rfl

theorem State.stolen_program (n : Nat) (k : InstNo) : ∀ s : State, ((s.stolen n).inst k).program = (s.inst k).program := by
  induction n with
  | zero => exact fun _ => rfl
  | succ n ih =>
    intro s
    by_cases h : s.spill = []
    · simp only [State.stolen, h]
    · obtain ⟨j, rest, hspill⟩ := List.exists_cons_of_ne_nil h
      rw [State.stolen_succ hspill, ih, State.steal_program]

/-- Head service serves the queue head by head, by induction on its length. -/
theorem headService_served (len : Nat) : ∀ s : State, InstancesInv s → s.queue.length = len →
    (∃ m n, s.Served s.headService m n) ∧ s.headService.HeadWaits := by
  induction len with
  | zero =>
    intro s hs hlen
    have hq := List.length_eq_zero_iff.1 hlen
    rw [headService_of_nil hq]
    refine ⟨⟨0, 0, .refl s⟩, fun i rest h => ?_⟩
    rw [hq] at h
    cases h
  | succ len ih =>
    intro s hs hlen
    have hne : s.queue ≠ [] := by
      intro h
      simp [h] at hlen
    obtain ⟨i, rest, hq⟩ := List.exists_cons_of_ne_nil hne
    have hrest : rest.length = len := by
      rw [hq, List.length_cons] at hlen
      omega
    cases hfree : s.instFits i s.freeCounts with
    | true =>
      rw [headService_of_fits hq hfree]
      have hu : InstancesInv (s.admitHead i) := hs.quiet (quiet_admitHead (c := .go) (hq ▸ List.mem_cons_self) hfree)
      obtain ⟨⟨m, n, h⟩, hwaits⟩ := ih _ hu (by rw [State.admitHead_queue hq, hrest])
      exact ⟨⟨_, _, (served_admitHead hs hq hfree).trans hs h⟩, hwaits⟩
    | false =>
      by_cases hfit : ∃ n, n ≤ s.spill.length ∧ s.instFits i (s.stolen n).enlargedCounts = true
      · obtain ⟨hn, hthis⟩ := Nat.find_spec hfit
        have hbefore (m : Nat) (hm : m < Nat.find hfit) : s.instFits i (s.stolen m).enlargedCounts = false := by
          rw [← Bool.not_eq_true]
          exact fun h => Nat.find_min hfit hm ⟨hm.le.trans hn, h⟩
        rw [headService_of_wait hs hq hfree hn hbefore hthis]
        refine ⟨⟨0, _, served_stolen _ s hs hn⟩, fun k l hk => ?_⟩
        rw [State.stolen_queue, hq] at hk
        obtain ⟨rfl, -⟩ := List.cons.inj hk
        rw [State.instFits_congr (State.stolen_program _ i s), State.instFits_congr (State.stolen_program _ i s),
          State.stolen_freeCounts]
        exact ⟨hfree, hthis⟩
      · have hnone (m : Nat) (hm : m ≤ s.spill.length) : s.instFits i (s.stolen m).enlargedCounts = false := by
          rw [← Bool.not_eq_true]
          exact fun h => hfit ⟨m, hm, h⟩
        have hq' : (s.stolen s.spill.length).queue = i :: rest := by rw [State.stolen_queue, hq]
        rw [headService_of_giveUp hs hq hfree hnone]
        have hu : InstancesInv ((s.stolen s.spill.length).giveUp i) :=
          (hs.stolen _).quiet (quiet_giveUp (c := .go) (hq' ▸ List.mem_cons_self))
        obtain ⟨⟨m, n, h⟩, hwaits⟩ := ih _ hu (by rw [State.giveUp_queue hq', hrest])
        exact ⟨⟨_, _, ((served_stolen _ s hs le_rfl).trans hs (served_giveUp hq')).trans hs h⟩, hwaits⟩

end

/-- Settles O27: head by head, then the whole service by induction on the queue. -/
theorem headServiceServesTheQueue : Obligations.HeadServiceServesTheQueue := by
  intro s hs
  refine ⟨headService_of_nil, fun i rest hq => ?_, ?_⟩
  · intro stolen givenUp
    have hstolen (n : Nat) : stolen n = s.stolen n := State.stolen_eq_foldl n s
    simp only [hstolen]
    refine ⟨fun hfit => ?_, fun hno => ⟨fun n hn hbefore hfit => headService_of_wait hs hq hno hn hbefore hfit, fun hnone => ?_⟩⟩
    · rw [headService_of_fits hq hfit, State.admitHead_eq hq]
    · have hq' : (s.stolen s.spill.length).queue = i :: rest := by rw [State.stolen_queue, hq]
      rw [headService_of_giveUp hs hq hno hnone, State.giveUp_eq hq']
  · obtain ⟨⟨m, n, h⟩, hwaits⟩ := headService_served _ s hs rfl
    exact ⟨m, n, h.queue, h.spill, h.heads, h.tails, h.others, hwaits⟩

end Sys2Proof.Machine
end

section
/-! The application event (R125 to R129): obligation O31. -/

namespace Sys2Proof.Machine

section
variable {s : State} {e : CueEntry} {es : List CueEntry} {c : CueCounts} {k : Nat}

/-! ### Entry by entry -/

theorem Status.applies_iff {st : Status} : st.applies = true ↔ st = .ok ∨ st = .clamped := by
  simp [Status.applies]

theorem applyEntries_of_applies (h : (applyEntry e s).1.applies = true) :
    applyEntries k (e :: es) c s = applyEntries (k + 1) es { c with applied := c.applied + 1 } (applyEntry e s).2 := by
  simp only [applyEntries, h, CueCounts.count, if_true]

theorem applyEntries_of_skipped (h : (applyEntry e s).1.applies = false) :
    applyEntries k (e :: es) c s =
      applyEntries (k + 1) es { c with skipped := c.skipped + 1, first := some (c.first.getD k) } s := by
  simp only [applyEntries, h, CueCounts.count, Bool.false_eq_true, if_false]

/-- What counts say of the entries up to index k: the first skipped one is named where one has been skipped. -/
structure CueCounts.Counted (c : CueCounts) (k : Nat) : Prop where
  first : c.first = none ↔ c.skipped = 0
  named : ∀ n, c.first = some n → n < k

theorem CueCounts.Counted.skip (h : c.Counted k) :
    CueCounts.Counted { c with skipped := c.skipped + 1, first := some (c.first.getD k) } (k + 1) where
  first := by simp
  named n hn := by
    obtain rfl := Option.some.inj hn
    cases hf : c.first with
    | none => exact Nat.lt_succ_self k
    | some m => exact (h.named m hf).trans (Nat.lt_succ_self k)

/-- Every entry is counted once; nothing changes where none is applied. -/
theorem applyEntries_counted (es : List CueEntry) : ∀ (k : Nat) (c : CueCounts) (s : State), c.Counted k →
    (applyEntries k es c s).1.applied + (applyEntries k es c s).1.skipped = c.applied + c.skipped + es.length ∧
    (applyEntries k es c s).1.Counted (k + es.length) ∧
    c.applied ≤ (applyEntries k es c s).1.applied ∧
    ((applyEntries k es c s).1.applied = c.applied → (applyEntries k es c s).2 = s) := by
  induction es with
  | nil => exact fun k c s h => ⟨rfl, h, le_rfl, fun _ => rfl⟩
  | cons e es ih =>
    intro k c s h
    have hlen : k + (e :: es).length = k + 1 + es.length := by rw [List.length_cons]; omega
    rw [hlen]
    cases ho : (applyEntry e s).1.applies with
    | true =>
      rw [applyEntries_of_applies ho]
      have hc : CueCounts.Counted { c with applied := c.applied + 1 } (k + 1) :=
        ⟨h.first, fun n hn => (h.named n hn).trans (Nat.lt_succ_self k)⟩
      obtain ⟨hsum, hcounted, hle, -⟩ := ih (k + 1) _ (applyEntry e s).2 hc
      dsimp only at hsum hle
      refine ⟨by rw [hsum, List.length_cons]; omega, hcounted, by omega, fun heq => absurd heq (by omega)⟩
    | false =>
      rw [applyEntries_of_skipped ho]
      obtain ⟨hsum, hcounted, hle, hsame⟩ := ih (k + 1) _ s h.skip
      dsimp only at hsum hle hsame
      exact ⟨by rw [hsum, List.length_cons]; omega, hcounted, hle, hsame⟩

/-! ### The event -/

theorem exec_cueApplication (s : State) : exec .cueApplication s = .next s.applyCue := rfl

theorem CueCounts.bytes_eq (c : CueCounts) :
    c.bytes = [BitVec.ofNat 8 c.applied, BitVec.ofNat 8 c.skipped, BitVec.ofNat 8 (c.first.getD 0xFF)] := by
  have hfirst : optByte c.first = [BitVec.ofNat 8 (c.first.getD 0xFF)] := by
    cases c.first <;> exact u1_eq _
  rw [CueCounts.bytes, hfirst, u1_eq, u1_eq]
  rfl

/-- The end of the event: the cue unit empty but for its list, the GO answered in its reserved place, APPLIED raised. -/
theorem State.completeCue_eq (c : CueCounts) (s : State) :
    s.completeCue c = State.raise (.applied c)
      { s with
        cue := { s.cue with fired := [], pendingFlag := false, origin := none, due := false },
        link :=
          match s.cue.origin with
          | some (.request tag) =>
            { s.link with
              reserved := s.link.reserved - 1,
              sendOrder := s.link.sendOrder ++ [⟨tag, 0xB3, .ok,
                [BitVec.ofNat 8 c.applied, BitVec.ofNat 8 c.skipped, BitVec.ofNat 8 (c.first.getD 0xFF)]⟩] }
          | some .pin => s.link
          | none => s.link } := by
  rw [← CueCounts.bytes_eq]
  obtain h | ⟨o, h⟩ := Option.eq_none_or_eq_some s.cue.origin
  · rw [State.completeCue, State.answerGo, h]
  · cases o with
    | pin => rw [State.completeCue, State.answerGo, h]
    | request tag =>
      rw [State.completeCue, State.answerGo, h]
      rfl

end

/-- Settles O31: the event by whether it is due, the entries by their outcomes, the counts by induction on the entries. -/
theorem applicationAppliesTheFiredSet : Obligations.ApplicationAppliesTheFiredSet := by
  refine ⟨fun s => ⟨fun hdue => ?_, fun hdue => ?_⟩, fun k e es c s => ?_, fun es s => ?_⟩
  · rw [exec_cueApplication, State.applyCue, if_neg (by rw [hdue]; exact Bool.false_ne_true)]
  · intro o
    have hcue : o.2.cue = s.cue := (applyEntries_onlyAborts s.cue.fired 0 CueCounts.zero s).cue
    have hend := State.completeCue_eq o.1 o.2
    rw [hcue] at hend
    rw [exec_cueApplication, State.applyCue, if_pos hdue]
    exact congrArg Host.Outcome.next hend
  · intro o
    refine ⟨fun h => applyEntries_of_applies (Status.applies_iff.2 h), fun h1 h2 => applyEntries_of_skipped ?_⟩
    rw [← Bool.not_eq_true, Status.applies_iff]
    exact fun h => h.elim h1 h2
  · intro o
    obtain ⟨hsum, hcounted, -, hsame⟩ := applyEntries_counted es 0 ⟨0, 0, none⟩ s ⟨by simp, nofun⟩
    rw [Nat.zero_add] at hcounted
    refine ⟨by simpa using hsum, hcounted.first, hcounted.named, hsame⟩

end Sys2Proof.Machine
end

section
/-! The check code (R149, R150): obligation O36. -/

namespace Sys2Proof.Machine

/-! ### The code is linear -/

/-- The code of the sample bits named in a list, joined to a code. -/
def codeOver (x : BitVec 24) (l : List Nat) (c : BitVec 6) : BitVec 6 :=
  l.foldl (fun c i => if x.getLsbD i then c ^^^ codeSet i else c) c

theorem checkCode_eq_codeOver (x : BitVec 24) : checkCode x = codeOver x (List.range 24) 0 := rfl

theorem codeOver_xor (x y : BitVec 24) (l : List Nat) : ∀ c d : BitVec 6,
    codeOver (x ^^^ y) l (c ^^^ d) = codeOver x l c ^^^ codeOver y l d := by
  induction l with
  | nil => exact fun _ _ => rfl
  | cons i l ih =>
    intro c d
    have hstep : (if (x ^^^ y).getLsbD i then (c ^^^ d) ^^^ codeSet i else c ^^^ d) =
        (if x.getLsbD i then c ^^^ codeSet i else c) ^^^ (if y.getLsbD i then d ^^^ codeSet i else d) := by
      rw [BitVec.getLsbD_xor]
      cases x.getLsbD i <;> cases y.getLsbD i
      · rfl
      · exact BitVec.xor_assoc ..
      · simp only [Bool.xor_false, if_true, Bool.false_eq_true, if_false]
        rw [BitVec.xor_assoc, BitVec.xor_assoc, BitVec.xor_comm d]
      · simp only [Bool.xor_self, if_true, Bool.false_eq_true, if_false]
        rw [BitVec.xor_comm d, BitVec.xor_assoc, ← BitVec.xor_assoc (codeSet i), BitVec.xor_self, BitVec.zero_xor]
    show codeOver (x ^^^ y) l (if (x ^^^ y).getLsbD i then (c ^^^ d) ^^^ codeSet i else c ^^^ d) = codeOver x l _ ^^^ codeOver y l _
    rw [hstep, ih]

theorem checkCode_xor (x y : BitVec 24) : checkCode (x ^^^ y) = checkCode x ^^^ checkCode y := by
  exact codeOver_xor x y (List.range 24) 0 0

theorem checkCode_bit : ∀ b < 24, checkCode (BitVec.ofNat 24 (2 ^ b)) = codeSet b := by decide

/-! ### The code bit by bit -/

/-- The sets of R149. -/
def codeSetBits : List (List Nat) :=
  [[0, 1, 2], [0, 1, 3], [0, 1, 4], [0, 1, 5], [0, 2, 3], [0, 2, 4], [0, 2, 5], [0, 3, 4], [0, 3, 5], [0, 4, 5],
   [1, 2, 3], [1, 2, 4], [1, 2, 5], [1, 3, 4], [1, 3, 5], [1, 4, 5], [2, 3, 4], [2, 3, 5], [2, 4, 5], [3, 4, 5],
   [0, 1, 2, 3, 4], [0, 1, 2, 3, 5], [0, 1, 2, 4, 5], [0, 1, 3, 4, 5]]

theorem codeSet_getLsbD : ∀ b < 24, ∀ j < 6, (codeSet b).getLsbD j = (codeSetBits.getD b []).contains j := by decide

theorem codeOver_getLsbD (x : BitVec 24) {j : Nat} (hj : j < 6) (l : List Nat) (hl : ∀ i ∈ l, i < 24) : ∀ c : BitVec 6,
    (codeOver x l c).getLsbD j =
      (c.getLsbD j ^^ decide ((l.countP fun b => x.getLsbD b && (codeSetBits.getD b []).contains j) % 2 = 1)) := by
  induction l with
  | nil => intro c; simp [codeOver]
  | cons i l ih =>
    intro c
    show (codeOver x l (if x.getLsbD i then c ^^^ codeSet i else c)).getLsbD j = _
    rw [ih fun k hk => hl k (List.mem_cons_of_mem _ hk), List.countP_cons]
    have hset := codeSet_getLsbD i (hl i List.mem_cons_self) j hj
    cases hx : x.getLsbD i with
    | false => simp
    | true =>
      cases hs : (codeSetBits.getD i []).contains j with
      | false => simp only [if_true, BitVec.getLsbD_xor, hset, hs, Bool.xor_false, Bool.and_false, Bool.false_eq_true, if_false, Nat.add_zero]
      | true =>
        have hodd (n : Nat) : decide ((n + 1) % 2 = 1) = !decide (n % 2 = 1) := by
          rw [← decide_not, decide_eq_decide]
          omega
        simp only [if_true, BitVec.getLsbD_xor, hset, hs, Bool.and_true, hodd, Bool.xor_true, Bool.not_xor, Bool.xor_not]

/-! ### The outcome by the syndrome -/

/-- The bits of a syndrome, added. -/
def parity (y : BitVec 6) : Bool :=
  y.getLsbD 0 ^^ y.getLsbD 1 ^^ y.getLsbD 2 ^^ y.getLsbD 3 ^^ y.getLsbD 4 ^^ y.getLsbD 5

theorem xor_pairs : ∀ a b c d : Bool, ((a ^^ b) ^^ (c ^^ d)) = ((a ^^ c) ^^ (b ^^ d)) := by decide

theorem parity_xor (y z : BitVec 6) : parity (y ^^^ z) = (parity y ^^ parity z) := by
  simp only [parity, BitVec.getLsbD_xor]
  rw [xor_pairs (y.getLsbD 0), xor_pairs (y.getLsbD 0 ^^ _), xor_pairs (y.getLsbD 0 ^^ _ ^^ _), xor_pairs (y.getLsbD 0 ^^ _ ^^ _ ^^ _),
    xor_pairs (y.getLsbD 0 ^^ _ ^^ _ ^^ _ ^^ _)]

theorem parity_codeSet : ∀ b < 24, parity (codeSet b) = true := by decide

theorem parity_bit : ∀ j < 6, parity (BitVec.ofNat 6 (2 ^ j)) = true := by decide

theorem bit_ne_zero : ∀ j < 6, BitVec.ofNat 6 (2 ^ j) ≠ 0 := by decide

theorem bit_ne_bit : ∀ k < 6, ∀ j < 6, j ≠ k → BitVec.ofNat 6 (2 ^ j) ≠ BitVec.ofNat 6 (2 ^ k) := by decide

theorem codeSet_ne_zero : ∀ b < 24, codeSet b ≠ 0 := by decide

theorem codeSet_ne_bit : ∀ b < 24, ∀ j < 6, codeSet b ≠ BitVec.ofNat 6 (2 ^ j) := by decide

/-- Every set is found by itself alone. -/
theorem find?_codeSet : ∀ b < 24, (List.range 24).find? (fun i => codeSet b == codeSet i) = some b := by decide

theorem codeSet_injective {a b : Nat} (ha : a < 24) (hb : b < 24) (h : codeSet a = codeSet b) : a = b := by
  have hfa := find?_codeSet a ha
  rw [h, find?_codeSet b hb] at hfa
  exact (Option.some.inj hfa).symm

section
variable {w : DramWord}

theorem checkWord_of_zero (h : syndrome w = 0) : checkWord w = .clean w.sample.toInt := by
  simp only [checkWord, h, if_true]

theorem checkWord_of_bit {j : Nat} (hj : j < 6) (h : syndrome w = BitVec.ofNat 6 (2 ^ j)) : checkWord w = .corrected w.sample.toInt := by
  have hany : ((List.range 6).any fun k => syndrome w == BitVec.ofNat 6 (2 ^ k)) = true :=
    List.any_eq_true.2 ⟨j, List.mem_range.2 hj, beq_iff_eq.2 h⟩
  have hzero : syndrome w ≠ 0 := h ▸ bit_ne_zero j hj
  simp only [checkWord, if_neg hzero, hany, if_true]

theorem any_bit_eq_false {y : BitVec 6} (h : ∀ j < 6, y ≠ BitVec.ofNat 6 (2 ^ j)) :
    ((List.range 6).any fun j => y == BitVec.ofNat 6 (2 ^ j)) = false := by
  rw [List.any_eq_false]
  exact fun j hj => by rw [beq_iff_eq]; exact h j (List.mem_range.1 hj)

theorem checkWord_of_codeSet {b : Nat} (hb : b < 24) (h : syndrome w = codeSet b) :
    checkWord w = .corrected (w.sample ^^^ BitVec.ofNat 24 (2 ^ b)).toInt := by
  have hany := any_bit_eq_false (codeSet_ne_bit b hb)
  simp only [checkWord, h, if_neg (codeSet_ne_zero b hb), hany, Bool.false_eq_true, if_false, find?_codeSet b hb]

theorem checkWord_of_other (h0 : syndrome w ≠ 0) (hbit : ∀ j < 6, syndrome w ≠ BitVec.ofNat 6 (2 ^ j))
    (hset : ∀ b < 24, syndrome w ≠ codeSet b) : checkWord w = .uncorrectable := by
  have hfind : (List.range 24).find? (fun i => syndrome w == codeSet i) = none := by
    rw [List.find?_eq_none]
    exact fun b hb => by rw [beq_iff_eq]; exact hset b (List.mem_range.1 hb)
  simp only [checkWord, if_neg h0, any_bit_eq_false hbit, Bool.false_eq_true, if_false, hfind]

/-- Two inverted bits leave a syndrome of even weight that is not zero: no set and no single bit has it. -/
theorem checkWord_of_even (h0 : syndrome w ≠ 0) (heven : parity (syndrome w) = false) : checkWord w = .uncorrectable := by
  refine checkWord_of_other h0 (fun j hj h => ?_) fun b hb h => ?_
  · rw [h, parity_bit j hj] at heven
    cases heven
  · rw [h, parity_codeSet b hb] at heven
    cases heven

/-- The syndrome of a word whose sample and code have been changed since it was written. -/
theorem syndrome_changed (x e : BitVec 24) (f : BitVec 6) : syndrome ⟨x ^^^ e, checkCode x ^^^ f⟩ = checkCode e ^^^ f := by
  show checkCode x ^^^ f ^^^ checkCode (x ^^^ e) = checkCode e ^^^ f
  rw [checkCode_xor, BitVec.xor_comm (checkCode x) f, BitVec.xor_assoc, ← BitVec.xor_assoc (checkCode x), BitVec.xor_self,
    BitVec.zero_xor, BitVec.xor_comm]

/-- The syndrome of a word whose sample alone has been changed. -/
theorem syndrome_sample_changed (x e : BitVec 24) : syndrome ⟨x ^^^ e, checkCode x⟩ = checkCode e := by
  have h := syndrome_changed x e 0
  simpa using h

/-- The syndrome of a word whose code alone has been changed. -/
theorem syndrome_code_changed (x : BitVec 24) (f : BitVec 6) : syndrome ⟨x, checkCode x ^^^ f⟩ = f := by
  show checkCode x ^^^ f ^^^ checkCode x = f
  rw [BitVec.xor_comm, ← BitVec.xor_assoc, BitVec.xor_self, BitVec.zero_xor]

theorem eq_codeSet_iff {y : BitVec 6} {b : Nat} (hb : b < 24) :
    y = codeSet b ↔ ∀ j < 6, y.getLsbD j = (codeSetBits.getD b []).contains j := by
  constructor
  · rintro rfl j hj
    exact codeSet_getLsbD b hb j hj
  · intro h
    refine BitVec.eq_of_getLsbD_eq fun j hj => ?_
    rw [h j hj, codeSet_getLsbD b hb j hj]

end

/-- Settles O36: the code is linear, so what is inverted alone makes the syndrome. -/
theorem codeCorrectsOneDetectsTwo : Obligations.CodeCorrectsOneDetectsTwo := by
  intro x sets
  have hxor_ne {a b : BitVec 6} (h : a ≠ b) : a ^^^ b ≠ 0 := fun h0 => h (BitVec.xor_eq_zero_iff.1 h0)
  refine ⟨fun j hj => ?_, fun w => ⟨checkWord_of_zero, fun j hj => checkWord_of_bit hj,
    fun b hb h => checkWord_of_codeSet hb ((eq_codeSet_iff hb).2 h), fun h0 hbit hset => checkWord_of_other h0 hbit fun b hb h => ?_⟩,
    ?_, fun b hb => ?_, fun j hj => ?_, fun a b hab hb => ?_, fun a j ha hj => ?_, fun j k hjk hk => ?_⟩
  · rw [checkCode_eq_codeOver, codeOver_getLsbD x hj _ fun i hi => List.mem_range.1 hi]
    simp [sets, codeSetBits]
  · obtain ⟨j, hj, hne⟩ := hset b hb
    exact hne ((eq_codeSet_iff hb).1 h j hj)
  · exact checkWord_of_zero (BitVec.xor_self)
  · have hs := (syndrome_sample_changed x (BitVec.ofNat 24 (2 ^ b))).trans (checkCode_bit b hb)
    rw [checkWord_of_codeSet hb hs, BitVec.xor_assoc, BitVec.xor_self, BitVec.xor_zero]
  · exact checkWord_of_bit hj (syndrome_code_changed x _)
  · have ha : a < 24 := hab.trans hb
    have hs : syndrome ⟨x ^^^ BitVec.ofNat 24 (2 ^ a) ^^^ BitVec.ofNat 24 (2 ^ b), checkCode x⟩ = codeSet a ^^^ codeSet b := by
      rw [BitVec.xor_assoc, syndrome_sample_changed, checkCode_xor, checkCode_bit a ha, checkCode_bit b hb]
    refine checkWord_of_even ?_ ?_
    · rw [hs]
      exact hxor_ne fun h => hab.ne (codeSet_injective ha hb h)
    · rw [hs, parity_xor, parity_codeSet a ha, parity_codeSet b hb]
      rfl
  · have hs : syndrome ⟨x ^^^ BitVec.ofNat 24 (2 ^ a), checkCode x ^^^ BitVec.ofNat 6 (2 ^ j)⟩ = codeSet a ^^^ BitVec.ofNat 6 (2 ^ j) := by
      rw [syndrome_changed, checkCode_bit a ha]
    refine checkWord_of_even ?_ ?_
    · rw [hs]
      exact hxor_ne (codeSet_ne_bit a ha j hj)
    · rw [hs, parity_xor, parity_codeSet a ha, parity_bit j hj]
      rfl
  · have hs : syndrome ⟨x, checkCode x ^^^ BitVec.ofNat 6 (2 ^ j) ^^^ BitVec.ofNat 6 (2 ^ k)⟩ =
        BitVec.ofNat 6 (2 ^ j) ^^^ BitVec.ofNat 6 (2 ^ k) := by
      rw [BitVec.xor_assoc, syndrome_code_changed]
    refine checkWord_of_even ?_ ?_
    · rw [hs]
      exact hxor_ne (bit_ne_bit k hk j (hjk.trans hk) hjk.ne)
    · rw [hs, parity_xor, parity_bit j (hjk.trans hk), parity_bit k hk]
      rfl

end Sys2Proof.Machine
end

section
/-! The two words of a tap (R11, R12, R35, R36, R151, R152, R154, R156, R157): obligation O37. -/

namespace Sys2Proof.Machine

section
variable {l : LineRun} {d k : Nat} {s : State}

/-! ### The source samples -/

theorem sourceSample_of_far (hpool : l.pool = .far) (hk : k ≤ l.f) :
    sourceSample l k s = (checkWord (s.dramWord (translate l.pages (posBack l.w k l.len))),
      some (translate l.pages (posBack l.w k l.len))) := by
  simp only [sourceSample, if_neg (Nat.not_lt.2 hk), hpool]

theorem sourceSample_of_beyond (hk : l.f < k) : sourceSample l k s = (.clean 0, none) := if_pos hk

theorem sourceSample_of_near (hpool : l.pool = .near) :
    sourceSample l k s =
      (.clean (if l.f < k then 0 else (s.nearWord (translate l.pages (posBack l.w k l.len))).toInt), none) := by
  unfold sourceSample
  split
  · rfl
  · rw [hpool]

/-! ### The pair -/

variable {x y : ReadOutcome × Option Nat}

theorem tapService_of_some {v w : Int} (hx : sourceSample l (d / 256) s = x) (hy : sourceSample l (d / 256 + 1) s = y)
    (h0 : x.1.sample = some v) (h1 : y.1.sample = some w) :
    tapService l d s = offerRead y (offerRead x (countRead y (countRead x s))) := by
  simp only [tapService, hx, hy, h0, h1]

theorem tapService_of_none (hx : sourceSample l (d / 256) s = x) (hy : sourceSample l (d / 256 + 1) s = y)
    (h : x.1 = .uncorrectable ∨ y.1 = .uncorrectable) : tapService l d s = countRead y (countRead x s) := by
  unfold tapService
  rw [hx, hy]
  dsimp only
  split
  · next h0 h1 => obtain h | h := h <;> simp [h, ReadOutcome.sample] at h0 h1
  · rfl

theorem tapRead_of_none (hx : sourceSample l (d / 256) s = x) (hy : sourceSample l (d / 256 + 1) s = y)
    (h : x.1 = .uncorrectable ∨ y.1 = .uncorrectable) : tapRead l d s = none := by
  unfold tapRead
  rw [hx, hy]
  split
  · next h0 h1 => obtain h | h := h <;> simp [h, ReadOutcome.sample] at h0 h1
  · rfl

theorem ReadOutcome.sample_of_ne {z : ReadOutcome} (h : z ≠ .uncorrectable) : ∃ v, z.sample = some v := by
  cases z with
  | clean v | corrected v => exact ⟨v, rfl⟩
  | uncorrectable => exact absurd rfl h

theorem tapService_cases (hx : sourceSample l (d / 256) s = x) (hy : sourceSample l (d / 256 + 1) s = y) :
    tapService l d s = countRead y (countRead x s) ∨
      tapService l d s = offerRead y (offerRead x (countRead y (countRead x s))) := by
  by_cases h : x.1 = .uncorrectable ∨ y.1 = .uncorrectable
  · exact .inl (tapService_of_none hx hy h)
  · obtain ⟨h0, h1⟩ := not_or.1 h
    obtain ⟨v, hv⟩ := ReadOutcome.sample_of_ne h0
    obtain ⟨w, hw⟩ := ReadOutcome.sample_of_ne h1
    exact .inr (tapService_of_some hx hy hv hw)

/-! ### Counts and locations (R156) -/

theorem State.location_eq (s : State) (a : Nat) :
    s.location a = { page := a / 2048, offset := a % 2048, owner := s.run.bind fun r => (r.farOwner[a / 2048]?).getD none } := by
  obtain h | ⟨r, h⟩ := Option.eq_none_or_eq_some s.run
  · simp only [State.location, h]
    rfl
  · simp only [State.location, h, List.getD_eq_getElem?_getD]
    rfl

theorem State.countUncorrectable_eq (a : Nat) (s : State) :
    s.countUncorrectable a = State.raise (.uncorrectable (s.location a))
      { s with errors := { s.errors with uncorrectable := min (s.errors.uncorrectable + 1) 65535,
                                         firstUncorr := some (s.errors.firstUncorr.getD (s.location a)) } } := by
  obtain h | ⟨b, h⟩ := Option.eq_none_or_eq_some s.errors.firstUncorr
  · simp only [State.countUncorrectable, h]
    rfl
  · simp only [State.countUncorrectable, h]
    rfl

/-- Whether an outcome is a corrected one. -/
def ReadOutcome.isCorrected (z : ReadOutcome) : Bool :=
  z matches .corrected _

/-- Whether an outcome is an uncorrectable one. -/
def ReadOutcome.isUncorrectable (z : ReadOutcome) : Bool :=
  z matches .uncorrectable

theorem countRead_counts (z : ReadOutcome) (a : Nat) (hc : s.errors.corrected ≤ 65535) (hu : s.errors.uncorrectable ≤ 65535) :
    (countRead (z, some a) s).errors.corrected = min 65535 (s.errors.corrected + [z].countP ReadOutcome.isCorrected) ∧
    (countRead (z, some a) s).errors.uncorrectable = min 65535 (s.errors.uncorrectable + [z].countP ReadOutcome.isUncorrectable) := by
  cases z with
  | clean v => exact ⟨(Nat.min_eq_right hc).symm, (Nat.min_eq_right hu).symm⟩
  | corrected v => exact ⟨Nat.min_comm _ _, (Nat.min_eq_right hu).symm⟩
  | uncorrectable => exact ⟨(Nat.min_eq_right hc).symm, Nat.min_comm _ _⟩

/-- The two words of a pair, counted. -/
theorem countRead_pair_counts (z z' : ReadOutcome) (a b : Nat) (hc : s.errors.corrected ≤ 65535) (hu : s.errors.uncorrectable ≤ 65535) :
    (countRead (z', some b) (countRead (z, some a) s)).errors.corrected =
      min 65535 (s.errors.corrected + [z, z'].countP ReadOutcome.isCorrected) ∧
    (countRead (z', some b) (countRead (z, some a) s)).errors.uncorrectable =
      min 65535 (s.errors.uncorrectable + [z, z'].countP ReadOutcome.isUncorrectable) := by
  obtain ⟨hc1, hu1⟩ := countRead_counts (s := s) z a hc hu
  obtain ⟨hc2, hu2⟩ := countRead_counts (s := countRead (z, some a) s) z' b (by omega) (by omega)
  rw [hc2, hu2, hc1, hu1]
  simp only [List.countP_cons, List.countP_nil]
  omega

theorem offerRead_counts (x : ReadOutcome × Option Nat) (s : State) :
    (offerRead x s).errors.corrected = s.errors.corrected ∧ (offerRead x s).errors.uncorrectable = s.errors.uncorrectable := by
  unfold offerRead
  split
  · next v a _ _ =>
    obtain ⟨-, h⟩ | ⟨-, -, h⟩ | ⟨-, -, h⟩ := State.offer_cases a v s <;> rw [h] <;> exact ⟨rfl, rfl⟩
  · exact ⟨rfl, rfl⟩

theorem countRead_corrections (x : ReadOutcome × Option Nat) (s : State) : (countRead x s).corrections = s.corrections := by
  unfold countRead
  split <;> rfl

theorem any_addr_iff {a : Nat} {q : List WriteBack} : q.any (fun e => e.addr == a) = true ↔ a ∈ q.map WriteBack.addr := by
  simp only [List.any_eq_true, beq_iff_eq, List.mem_map]

theorem State.offer_of_queued {a : Nat} (h : a ∈ s.corrections.map WriteBack.addr) (v : Int) : s.offer a v = s :=
  if_pos (any_addr_iff.2 h)

theorem State.offer_of_room {a : Nat} (h : a ∉ s.corrections.map WriteBack.addr) (hroom : s.corrections.length < 8) (v : Int) :
    s.offer a v = { s with corrections := s.corrections ++ [⟨a, v⟩] } :=
  (if_neg (mt any_addr_iff.1 h)).trans (if_pos hroom)

theorem State.offer_of_full {a : Nat} (h : a ∉ s.corrections.map WriteBack.addr) (hfull : 8 ≤ s.corrections.length) (v : Int) :
    s.offer a v = State.raise (.dropped a) { s with errors := { s.errors with dropped := min (s.errors.dropped + 1) 65535 } } :=
  (if_neg (mt any_addr_iff.1 h)).trans (if_neg (Nat.not_lt.2 hfull))

theorem translate_of_page {pages : List Nat} {p q : Nat} (h : pages[p / 2048]? = some q) : translate pages p = q * 2048 + p % 2048 := by
  have hget : pages.getD (p / 2048) 0 = q := by rw [List.getD_eq_getElem?_getD, h]; rfl
  exact congrArg (· * 2048 + p % 2048) hget

end

/-- Settles O37: the two words by the fill count and the pool, then the service by the two outcomes. -/
theorem tapPairIsJudged : Obligations.TapPairIsJudged := by
  unfold Obligations.TapPairIsJudged
  intro located counted
  have hlocated (a : Nat) (s : State) : s.location a = located a s := s.location_eq a
  have hcounted (z : ReadOutcome) (a : Nat) (s : State) : countRead (z, some a) s = counted z a s := by
    cases z with
    | clean v => rfl
    | corrected v =>
      show s.countCorrected a = _
      simp only [counted, ← hlocated]
      rfl
    | uncorrectable =>
      show s.countUncorrectable a = _
      rw [State.countUncorrectable_eq]
      simp only [counted, ← hlocated]
  refine ⟨fun l d s hpool hfill hc hu => ?_, fun l d s hpool hfill => ?_, fun l d s hfill => ?_, fun l d s hpool => ?_,
    fun pages p q h => translate_of_page h, fun l n => ⟨rfl, rfl⟩,
    fun a v s => ⟨fun h => State.offer_of_queued h v, fun h hroom => State.offer_of_room h hroom v,
      fun h hfull => State.offer_of_full h hfull v⟩⟩
  · intro a b x y t u
    have hx : sourceSample l (d / 256) s = (x, some a) := sourceSample_of_far hpool (by omega)
    have hy : sourceSample l (d / 256 + 1) s = (y, some b) := sourceSample_of_far hpool hfill
    have hu' : countRead (y, some b) (countRead (x, some a) s) = u := by rw [hcounted, hcounted]
    have hpair (v w : Int) (h0 : x.sample = some v) (h1 : y.sample = some w) :
        t = offerRead (y, some b) (offerRead (x, some a) u) := by rw [← hu']; exact tapService_of_some hx hy h0 h1
    have hcounts := countRead_pair_counts x y a b hc hu
    have htcounts : t.errors.corrected = u.errors.corrected ∧ t.errors.uncorrectable = u.errors.uncorrectable := by
      obtain h | h := tapService_cases hx hy
      · rw [hu'] at h
        rw [show t = u from h]
        exact ⟨rfl, rfl⟩
      · rw [hu'] at h
        rw [show t = _ from h]
        obtain ⟨h1, h2⟩ := offerRead_counts (x, some a) u
        obtain ⟨h3, h4⟩ := offerRead_counts (y, some b) (offerRead (x, some a) u)
        exact ⟨h3.trans h1, h4.trans h2⟩
    rw [hu'] at hcounts
    refine ⟨fun h0 h1 => ?_, fun h => ?_, fun v w h0 h1 => ?_, fun v w h0 h1 => ?_, fun v w h0 h1 => ?_, fun v w h0 h1 => ?_,
      htcounts.1.trans hcounts.1, htcounts.2.trans hcounts.2, tapService_memory l d s⟩
    · obtain ⟨v, hv⟩ := ReadOutcome.sample_of_ne h0
      obtain ⟨w, hw⟩ := ReadOutcome.sample_of_ne h1
      exact ⟨v, w, hv, hw, tapRead_of_samples (by rw [hx]; exact hv) (by rw [hy]; exact hw)⟩
    · have ht : t = u := (tapService_of_none hx hy h).trans hu'
      refine ⟨tapRead_of_none hx hy h, ht, ?_⟩
      rw [ht, ← hu', countRead_corrections, countRead_corrections]
    · rw [hpair v w (by rw [h0]; rfl) (by rw [h1]; rfl), ← hu', h0, h1]
      rfl
    · rw [hpair v w (by rw [h0]; rfl) (by rw [h1]; rfl)]
      simp only [h0, h1, offerRead]
    · rw [hpair v w (by rw [h0]; rfl) (by rw [h1]; rfl)]
      simp only [h0, h1, offerRead]
    · rw [hpair v w (by rw [h0]; rfl) (by rw [h1]; rfl)]
      simp only [h0, h1, offerRead]
  · intro a x
    have hx : sourceSample l (d / 256) s = (x, some a) := sourceSample_of_far hpool hfill.le
    have hy : sourceSample l (d / 256 + 1) s = (.clean 0, none) := sourceSample_of_beyond (by omega)
    have hread (v : Int) (h : x.sample = some v) : tapRead l d s = some (interpolate v 0 (d % 256)) :=
      tapRead_of_samples (by rw [hx]; exact h) (by rw [hy]; rfl)
    refine ⟨fun v h => ⟨hread v (by rw [h]; rfl), ?_⟩, fun v h => ⟨hread v (by rw [h]; rfl), ?_⟩, fun h => ⟨tapRead_of_none hx hy (.inl h), ?_⟩⟩
    · rw [tapService_of_some (v := v) (w := 0) hx hy (by rw [h]; rfl) rfl, h]
      rfl
    · rw [tapService_of_some (v := v) (w := 0) hx hy (by rw [h]; rfl) rfl, ← hcounted, h]
      rfl
    · rw [tapService_of_none hx hy (.inl h), ← hcounted]
      rfl
  · have hx : sourceSample l (d / 256) s = (.clean 0, none) := sourceSample_of_beyond hfill
    have hy : sourceSample l (d / 256 + 1) s = (.clean 0, none) := sourceSample_of_beyond (by omega)
    refine ⟨?_, tapService_of_some (v := 0) (w := 0) hx hy rfl rfl⟩
    rw [tapRead_of_samples (s0 := 0) (s1 := 0) (by rw [hx]; rfl) (by rw [hy]; rfl)]
    simp [interpolate]
  · intro word
    have hx : sourceSample l (d / 256) s = (.clean (word (d / 256)), none) := sourceSample_of_near hpool
    have hy : sourceSample l (d / 256 + 1) s = (.clean (word (d / 256 + 1)), none) := sourceSample_of_near hpool
    exact ⟨tapRead_of_samples (by rw [hx]; rfl) (by rw [hy]; rfl), tapService_of_some hx hy rfl rfl⟩

end Sys2Proof.Machine
end

section
/-! NOTICE_CONFIG and NOTICE_READ (R198, R199, R205): obligation O42. -/

namespace Sys2Proof.Machine

section
variable {s : State} {f : Frame} {rest : List Frame} {a b p : Byte}

/-! ### Codes -/

theorem Group.ofCode_eq (b : Byte) : Group.ofCode b = Group.all[b.toNat]? := by
  unfold Group.ofCode
  generalize b.toNat = n
  match n with
  | 0 | 1 | 2 | 3 | 4 | 5 => rfl
  | n + 6 => rfl

theorem Group.code_of_getElem? {g : Group} {k : Nat} (h : Group.all[k]? = some g) : g.code = k := by
  match k with
  | 0 | 1 | 2 | 3 | 4 | 5 => cases h; rfl
  | k + 6 => cases h

theorem enableOf_eq_none (h : 2 ≤ b.toNat) : enableOf b = none := by
  unfold enableOf
  split
  · omega
  · omega
  · rfl

theorem enableOf_eq_some (h : b.toNat ≤ 1) : enableOf b = some (decide (b = 1)) ∧ boolByte (decide (b = 1)) = [b] := by
  obtain rfl | rfl | hb := byte_cases b
  · exact ⟨rfl, rfl⟩
  · exact ⟨rfl, rfl⟩
  · omega

theorem Notices.setConfig_eq (g : Group) (c : GroupConfig) (n : Notices) :
    n.setConfig g c = match g with
      | .port => { n with portCfg := c }
      | .memory => { n with memoryCfg := c }
      | .inst => { n with instCfg := c }
      | .cue => { n with cueCfg := c }
      | .tempo => { n with tempoCfg := c }
      | .link => { n with linkCfg := c } := by
  cases g <;> rfl

/-! ### NOTICE_CONFIG -/

theorem exec_noticeConfig (s : State) : exec .noticeConfig s = .next (serveKind .noticeConfig ownNoticeConfig s) := rfl

theorem exec_noticeConfig_of_bytes (htake : CanTake s f rest) (hkind : f.kind = 0x62) (hbody : f.body = [a, b, p]) :
    exec .noticeConfig s = .next (ownNoticeConfig f (s.takenInFlight rest)) := by
  rw [exec_noticeConfig, serveKind_of_servedInSetup htake (by rw [hkind]; rfl) (by rw [hbody]; rfl) rfl (by decide)]

theorem ownNoticeConfig_of_bad (hbody : f.body = [a, b, p]) (h : 6 ≤ a.toNat ∨ 2 ≤ b.toNat ∨ 4 ≤ p.toNat) (t : State) :
    ownNoticeConfig f t = t.answer f .badArg [] := by
  have ha : byteAt f.body 0 = a := by rw [hbody]; rfl
  have hb : byteAt f.body 1 = b := by rw [hbody]; rfl
  have hp : u1At f.body 2 = p.toNat := by rw [hbody]; rfl
  unfold ownNoticeConfig
  rw [ha, hb, hp]
  split
  · next g e hg he =>
    refine if_neg fun hle => ?_
    obtain h | h | h := h
    · rw [Group.ofCode_eq, List.getElem?_eq_none h] at hg
      cases hg
    · rw [enableOf_eq_none h] at he
      cases he
    · omega
  · rfl

theorem ownNoticeConfig_of_good {g : Group} (hbody : f.body = [a, b, p]) (hg : Group.all[a.toNat]? = some g) (hb : b.toNat ≤ 1)
    (hp : p.toNat ≤ 3) (t : State) :
    ownNoticeConfig f t =
      State.answer f .ok [a, b, p] { t with notices := t.notices.setConfig g ⟨decide (b = 1), p.toNat⟩ } := by
  have ha : byteAt f.body 0 = a := by rw [hbody]; rfl
  have hb' : byteAt f.body 1 = b := by rw [hbody]; rfl
  have hp' : u1At f.body 2 = p.toNat := by rw [hbody]; rfl
  obtain ⟨he, hbyte⟩ := enableOf_eq_some hb
  unfold ownNoticeConfig
  rw [ha, hb', hp', Group.ofCode_eq, hg, he]
  simp only [if_pos hp, Group.code_of_getElem? hg, u1_eq, hbyte, BitVec.ofNat_toNat, BitVec.setWidth_eq, List.cons_append,
    List.nil_append]

/-! ### NOTICE_READ -/

theorem exec_noticeRead (s : State) : exec .noticeRead s = .next (serveKind .noticeRead ownNoticeRead s) := rfl

theorem exec_noticeRead_of_canTake (htake : CanTake s f rest) (hkind : f.kind = 0x60) (hbody : f.body = []) :
    exec .noticeRead s = .next (s.replied f rest .ok s.notices.readBody) := by
  rw [exec_noticeRead, serveKind_of_servedInSetup htake (by rw [hkind]; rfl) (by rw [hbody]; rfl) rfl (by decide)]
  rfl

/-- Bit k of the pending set stands for flag k. -/
theorem sum_zipIdx_eq (flags : List Bool) (k : Nat) :
    ((flags.zipIdx k).map fun z => if z.1 then 2 ^ z.2 else 0).sum = 2 ^ k * flagByte flags := by
  induction flags generalizing k with
  | nil => rfl
  | cons b flags ih =>
    simp only [List.zipIdx_cons, List.map_cons, List.sum_cons, ih, flagByte, pow_succ]
    cases b
    · simp only [Bool.false_eq_true, if_false]
      ring
    · simp only [if_true]
      ring

theorem flagByte_eq (flags : List Bool) :
    flagByte flags = (flags.zipIdx.map fun z => if z.1 then 2 ^ z.2 else 0).sum := by
  rw [sum_zipIdx_eq, pow_zero, Nat.one_mul]

/-- The head of a group's block and its details (R205). -/
theorem Notices.block_eq (n : Notices) (g : Group) :
    n.block g =
      [BitVec.ofNat 8 g.code, BitVec.ofNat 8 (n.config g).priority, if (n.config g).enabled then 1 else 0,
        BitVec.ofNat 8 (((n.flags g).zipIdx.map fun z => if z.1 then 2 ^ z.2 else 0).sum)] ++ n.details g := by
  rw [Notices.block, u1_eq, u1_eq, u1_eq, boolByte_eq, flagByte_eq]
  rfl

theorem locationDetail_eq (l : Option Location) :
    locationDetail l = match l with
      | some l => beBytes 2 l.page ++ beBytes 2 l.offset ++
          match l.owner with
          | some o => [instByte o.inst, BitVec.ofNat 8 o.line]
          | none => [0xFF, 0xFF]
      | none => [0, 0, 0, 0, 0, 0] := by
  cases l with
  | none => rfl
  | some l =>
    obtain h | ⟨o, h⟩ := Option.eq_none_or_eq_some l.owner
    · simp only [locationDetail, Location.bytes, h, u1_eq]
      rfl
    · simp only [locationDetail, Location.bytes, h, u1_eq]
      rfl

theorem Notices.details_inst (n : Notices) :
    n.details .inst = [n.released, n.stolen, n.startFailed, n.admitted, n.clipped, n.limit].flatMap fun m => beBytes 3 m.toNat := by
  simp only [Notices.details, List.flatMap_cons, List.flatMap_nil, List.append_nil, List.append_assoc]
  rfl

theorem Notices.details_cue (n : Notices) :
    n.details .cue = match n.applied with
      | some k => [BitVec.ofNat 8 k.applied, BitVec.ofNat 8 k.skipped, BitVec.ofNat 8 (k.first.getD 0xFF)]
      | none => [0, 0, 0] := by
  unfold Notices.details
  obtain h | ⟨k, h⟩ := Option.eq_none_or_eq_some n.applied
  · simp only [h]
    rfl
  · simp only [h]
    exact CueCounts.bytes_eq k

theorem Notices.details_link (n : Notices) :
    n.details .link = [n.overrun.getD 0,
      match n.badFrame with
      | some .stray => 0
      | some .length => 1
      | some .deselect => 2
      | none => 0] := by
  unfold Notices.details
  obtain h | ⟨k, h⟩ := Option.eq_none_or_eq_some n.badFrame
  · simp only [h]
    rfl
  · simp only [h]
    cases k <;> rfl

/-! ### Which groups are listed, and in which order -/

theorem Group.mem_all (g : Group) : g ∈ Group.all := by
  cases g <;> decide

theorem Notices.mem_listed_iff {n : Notices} {g : Group} (h : (n.config g).priority ≤ 3) : g ∈ n.listed ↔ n.pending g = true := by
  simp only [Notices.listed, List.mem_flatMap, List.mem_filter, Group.mem_all, true_and, Bool.and_eq_true, beq_iff_eq]
  constructor
  · rintro ⟨p, -, hp, -⟩
    exact hp
  · intro hp
    have hmem : (n.config g).priority ∈ [3, 2, 1, 0] := by
      simp only [List.mem_cons, List.not_mem_nil, or_false]
      omega
    exact ⟨_, hmem, hp, rfl⟩

theorem Notices.pending_iff (n : Notices) (g : Group) :
    n.pending g = true ↔ match g with
      | .port => n.holdover = true ∨ n.lockRestored = true ∨ n.outClip ≠ 0
      | .memory => n.corrected ≠ none ∨ n.uncorrectable ≠ none ∨ n.dropped ≠ none
      | .inst => n.released ≠ 0 ∨ n.stolen ≠ 0 ∨ n.startFailed ≠ 0 ∨ n.admitted ≠ 0 ∨ n.clipped ≠ 0 ∨ n.limit ≠ 0
      | .cue => n.applied ≠ none
      | .tempo => n.tapTempo ≠ none
      | .link => n.overrun ≠ none ∨ n.badFrame ≠ none := by
  cases g <;> simp [Notices.pending, Notices.flags, Option.isSome_iff_ne_none]

/-- Groups of higher priority come first, those of one priority in tie order (R199). -/
theorem Notices.listed_pairwise (n : Notices) :
    n.listed.Pairwise fun g h =>
      (n.config h).priority < (n.config g).priority ∨
        (n.config h).priority = (n.config g).priority ∧ Group.all.idxOf g < Group.all.idxOf h := by
  have hall : Group.all.Pairwise fun g h => Group.all.idxOf g < Group.all.idxOf h := by decide
  have hdesc : [3, 2, 1, 0].Pairwise fun p q => q < p := by decide
  have hprio {p : Nat} {g : Group} (hg : g ∈ Group.all.filter fun g => n.pending g && (n.config g).priority == p) :
      (n.config g).priority = p := by
    rw [List.mem_filter, Bool.and_eq_true, beq_iff_eq] at hg
    exact hg.2.2
  refine List.pairwise_flatMap.2 ⟨fun p _ => ?_, hdesc.imp fun hlt g hg h hh => .inl ?_⟩
  · refine List.Pairwise.imp_of_mem (fun hg hh hlt => .inr ⟨?_, hlt⟩) (hall.filter _)
    rw [hprio hg, hprio hh]
  · rw [hprio hg, hprio hh]
    exact hlt

end

/-- Settles O42: NOTICE_CONFIG by its fields, the reply of NOTICE_READ group by group, and the listed groups by their priorities. -/
theorem noticeConfigAndRead : Obligations.NoticeConfigAndRead := by
  refine ⟨fun s f rest a b p htake hkind hbody => ⟨fun h => ?_, fun hb hp g hg => ?_⟩,
    fun s f rest htake hkind hbody => ?_, fun n hprio => ⟨rfl, fun g => ?_, fun g => n.mem_listed_iff (hprio g), n.listed_pairwise⟩⟩
  · rw [exec_noticeConfig_of_bytes htake hkind hbody, ownNoticeConfig_of_bad hbody h]
    rfl
  · rw [exec_noticeConfig_of_bytes htake hkind hbody, ownNoticeConfig_of_good hbody hg hb hp]
    cases g <;> rfl
  · intro n place block
    have hplace (l : Option Location) : locationDetail l = place l := locationDetail_eq l
    rw [exec_noticeRead_of_canTake htake hkind hbody, Notices.readBody, u1_eq]
    refine congrArg (fun body => Host.Outcome.next (s.replied f rest .ok (BitVec.ofNat 8 n.listed.length :: body)))
      (congrArg (n.listed.flatMap ·) (funext fun g => ?_))
    rw [Notices.block_eq]
    cases g with
    | port => rfl
    | memory =>
      rw [Notices.details, hplace, hplace]
      rfl
    | inst =>
      rw [Notices.details_inst]
      rfl
    | cue =>
      rw [Notices.details_cue]
      rfl
    | tempo => rfl
    | link =>
      rw [Notices.details_link]
      rfl
  · refine (n.mem_listed_iff (hprio g)).trans ((n.pending_iff g).trans ?_)
    cases g <;> exact Iff.rfl

end Sys2Proof.Machine
end

section
/-! NOTICE_CLEAR (R200, R205): obligation O43. -/

namespace Sys2Proof.Machine

/-! ### Bytes joined by inclusive or (log 17) -/

theorem beVal_orBytes {xs ys : List Byte} (h : xs.length = ys.length) : beVal (orBytes xs ys) = beVal xs ||| beVal ys := by
  have hshift (n : Nat) (b : Byte) : n * 256 + b.toNat = n <<< 8 ||| b.toNat := by
    rw [← Nat.shiftLeft_add_eq_or_of_lt b.isLt, Nat.shiftLeft_eq]
  induction xs using List.reverseRecOn generalizing ys with
  | nil =>
    obtain rfl := List.length_eq_zero_iff.1 h.symm
    rfl
  | append_singleton xs b ih =>
    obtain rfl | ⟨ys, c, rfl⟩ := ys.eq_nil_or_concat'
    · simp at h
    · have hlen : xs.length = ys.length := by simpa using h
      have hor : orBytes (xs ++ [b]) (ys ++ [c]) = orBytes xs ys ++ [b ||| c] := List.zipWith_append hlen
      rw [hor, beVal_append_singleton, beVal_append_singleton, beVal_append_singleton, ih hlen, hshift, hshift, hshift,
        Nat.shiftLeft_or_distrib, BitVec.toNat_or]
      ac_rfl

theorem uAt_orBytes {xs ys : List Byte} (h : xs.length = ys.length) (k o : Nat) :
    uAt k (orBytes xs ys) o = uAt k xs o ||| uAt k ys o := by
  rw [uAt, orBytes, List.drop_zipWith, List.take_zipWith]
  exact beVal_orBytes (by rw [List.length_take, List.length_take, List.length_drop, List.length_drop, h])

theorem uAt_replicate_zero (n k o : Nat) : uAt k (List.replicate n 0) o = 0 := by
  have hzero (m : Nat) : beVal (List.replicate m 0) = 0 := by
    induction m with
    | zero => rfl
    | succ m ih => rw [List.replicate_succ', beVal_append_singleton, ih]; rfl
  rw [uAt, List.drop_replicate, List.take_replicate, hzero]

section
variable {w : Nat} {g : Group} {es : List ClearEntry}

theorem and_not_ofNat_or (m : BitVec w) (a b : Nat) :
    m &&& ~~~ BitVec.ofNat w (a ||| b) = (m &&& ~~~ BitVec.ofNat w a) &&& ~~~ BitVec.ofNat w b := by
  rw [BitVec.ofNat_or, BitVec.not_or, BitVec.and_assoc]

/-! ### The entries of one group, joined -/

/-- One entry joined to what the entries before it name. -/
def joinEntry (g : Group) (acc : Nat × List Byte) (e : ClearEntry) : Nat × List Byte :=
  if e.group = g then (acc.1 ||| e.flags, orBytes acc.2 e.bits) else acc

theorem clearUnion_eq (g : Group) (es : List ClearEntry) : clearUnion g es = es.foldl (joinEntry g) (0, List.replicate 18 0) := rfl

theorem foldl_joinEntry_testBit (acc : Nat × List Byte) (k : Nat) :
    (es.foldl (joinEntry g) acc).1.testBit k = (acc.1.testBit k || es.any fun e => decide (e.group = g) && e.flags.testBit k) := by
  induction es generalizing acc with
  | nil => simp
  | cons e es ih =>
    rw [List.foldl_cons, ih, List.any_cons, joinEntry]
    by_cases h : e.group = g
    · simp [h, Bool.or_assoc]
    · simp [h]

theorem clearUnion_testBit (g : Group) (es : List ClearEntry) (k : Nat) :
    (clearUnion g es).1.testBit k = es.any fun e => decide (e.group = g) && e.flags.testBit k := by
  rw [clearUnion_eq, foldl_joinEntry_testBit, Nat.zero_testBit, Bool.false_or]

theorem foldl_joinEntry_mask {acc : Nat × List Byte} (hacc : acc.2.length = 18) (hes : ∀ e ∈ es, e.bits.length = 18) (m : BitVec w)
    (k o : Nat) :
    m &&& ~~~ BitVec.ofNat w (uAt k (es.foldl (joinEntry g) acc).2 o) =
      (es.filter fun e => e.group = g).foldl (fun m e => m &&& ~~~ BitVec.ofNat w (uAt k e.bits o))
        (m &&& ~~~ BitVec.ofNat w (uAt k acc.2 o)) := by
  induction es generalizing acc with
  | nil => rfl
  | cons e es ih =>
    have he : e.bits.length = 18 := hes e List.mem_cons_self
    have hes' : ∀ e ∈ es, e.bits.length = 18 := fun e h => hes e (List.mem_cons_of_mem _ h)
    by_cases h : e.group = g
    · have hlen : (orBytes acc.2 e.bits).length = 18 := by rw [orBytes, List.length_zipWith, hacc, he]; rfl
      rw [List.foldl_cons, joinEntry, if_pos h, ih hlen hes', List.filter_cons_of_pos (by simpa using h), List.foldl_cons,
        uAt_orBytes (hacc.trans he.symm), and_not_ofNat_or]
    · rw [List.foldl_cons, joinEntry, if_neg h, ih hacc hes', List.filter_cons_of_neg (by simpa using h)]

/-- A mask cleared by the joined entries of its group: each of them clears its bits. -/
theorem clearMask_clearUnion (hes : ∀ e ∈ es, e.bits.length = 18) (m : BitVec w) (j k o : Nat) :
    clearMask w (clearUnion g es).1 j (uAt k (clearUnion g es).2 o) m =
      if (es.any fun e => decide (e.group = g) && e.flags.testBit j) then
        (es.filter fun e => e.group = g).foldl (fun m e => m &&& ~~~ BitVec.ofNat w (uAt k e.bits o)) m
      else m := by
  rw [clearMask, clearUnion_testBit, clearUnion_eq, foldl_joinEntry_mask (List.length_replicate ..) hes, uAt_replicate_zero,
    show m &&& ~~~ BitVec.ofNat w 0 = m by simp]

/-- A NOTICE_CLEAR field by field (R200). -/
theorem Notices.clear_eq (es : List ClearEntry) (n : Notices) :
    n.clear es =
      { n with
        holdover := n.holdover && !(clearUnion .port es).1.testBit 0,
        lockRestored := n.lockRestored && !(clearUnion .port es).1.testBit 1,
        outClip := clearMask 32 (clearUnion .port es).1 2 (uAt 4 (clearUnion .port es).2 0) n.outClip,
        corrected := clearDetail (clearUnion .memory es).1 0 n.corrected,
        uncorrectable := clearDetail (clearUnion .memory es).1 1 n.uncorrectable,
        dropped := clearDetail (clearUnion .memory es).1 2 n.dropped,
        released := clearMask 24 (clearUnion .inst es).1 0 (uAt 3 (clearUnion .inst es).2 0) n.released,
        stolen := clearMask 24 (clearUnion .inst es).1 1 (uAt 3 (clearUnion .inst es).2 3) n.stolen,
        startFailed := clearMask 24 (clearUnion .inst es).1 2 (uAt 3 (clearUnion .inst es).2 6) n.startFailed,
        admitted := clearMask 24 (clearUnion .inst es).1 3 (uAt 3 (clearUnion .inst es).2 9) n.admitted,
        clipped := clearMask 24 (clearUnion .inst es).1 4 (uAt 3 (clearUnion .inst es).2 12) n.clipped,
        limit := clearMask 24 (clearUnion .inst es).1 5 (uAt 3 (clearUnion .inst es).2 15) n.limit,
        applied := clearDetail (clearUnion .cue es).1 0 n.applied,
        tapTempo := clearDetail (clearUnion .tempo es).1 0 n.tapTempo,
        overrun := clearDetail (clearUnion .link es).1 0 n.overrun,
        badFrame := clearDetail (clearUnion .link es).1 1 n.badFrame } := rfl

end

/-! ### The entries of a body (R205) -/

section
variable {s : State} {f : Frame} {rest : List Frame} {es : List (Byte × Byte × List Byte)} {body : List Byte}

/-- The flag counts of the groups in tie order (R205). -/
def groupFlagCounts : List Nat := [3, 3, 6, 1, 1, 2]

theorem groupFlagCounts_eq : groupFlagCounts = Group.all.map Group.flagCount := rfl

/-- The bytes of an entry. -/
def entryBytes (e : Byte × Byte × List Byte) : List Byte := e.1 :: e.2.1 :: e.2.2

/-- An entry read from its bytes, for a group code that names a group. -/
def entryOf (e : Byte × Byte × List Byte) : ClearEntry :=
  ⟨(Group.all[e.1.toNat]?).getD .port, e.2.1.toNat, e.2.2⟩

/-- An entry in its domain: a known group, and no flag that is not of that group. -/
def EntryOk (e : Byte × Byte × List Byte) : Prop :=
  ∃ m, groupFlagCounts[e.1.toNat]? = some m ∧ e.2.1.toNat < 2 ^ m

variable {e : Byte × Byte × List Byte} {o : Nat} {post : List Byte}

theorem clearEntryAt_of_drop (h : body.drop o = entryBytes e ++ post) (hlen : e.2.2.length = 18) :
    clearEntryAt body o = (Group.all[e.1.toNat]?).bind fun g =>
      if e.2.1.toNat < 2 ^ g.flagCount then some ⟨g, e.2.1.toNat, e.2.2⟩ else none := by
  have hat (k : Nat) : byteAt body (o + k) = byteAt (entryBytes e ++ post) k := by
    rw [← h, byteAt, byteAt, List.getD_eq_getElem?_getD, List.getD_eq_getElem?_getD, List.getElem?_drop]
  have h0 : byteAt body o = e.1 := hat 0
  have h1 : u1At body (o + 1) = e.2.1.toNat := congrArg BitVec.toNat (hat 1)
  have h2 : (body.drop (o + 2)).take 18 = e.2.2 := by
    rw [← List.drop_drop, h]
    exact List.take_left' hlen
  rw [clearEntryAt, h0, h1, h2, Group.ofCode_eq]
  cases Group.all[e.1.toNat]? <;> rfl

theorem EntryOk.exists_group (h : EntryOk e) : ∃ g, Group.all[e.1.toNat]? = some g ∧ e.2.1.toNat < 2 ^ g.flagCount := by
  obtain ⟨m, hm, hlt⟩ := h
  rw [groupFlagCounts_eq, List.getElem?_map, Option.map_eq_some_iff] at hm
  obtain ⟨g, hg, rfl⟩ := hm
  exact ⟨g, hg, hlt⟩

theorem clearEntryAt_of_ok (h : body.drop o = entryBytes e ++ post) (hlen : e.2.2.length = 18) (hok : EntryOk e) :
    clearEntryAt body o = some (entryOf e) := by
  obtain ⟨g, hg, hlt⟩ := hok.exists_group
  rw [clearEntryAt_of_drop h hlen, hg, Option.bind_some, if_pos hlt, entryOf, hg, Option.getD_some]

theorem clearEntryAt_of_bad (h : body.drop o = entryBytes e ++ post) (hlen : e.2.2.length = 18)
    (hbad : 6 ≤ e.1.toNat ∨ ∃ m, groupFlagCounts[e.1.toNat]? = some m ∧ 2 ^ m ≤ e.2.1.toNat) : clearEntryAt body o = none := by
  rw [clearEntryAt_of_drop h hlen]
  obtain hbad | ⟨m, hm, hle⟩ := hbad
  · rw [List.getElem?_eq_none hbad]
    rfl
  · rw [groupFlagCounts_eq, List.getElem?_map, Option.map_eq_some_iff] at hm
    obtain ⟨g, hg, rfl⟩ := hm
    rw [hg, Option.bind_some, if_neg (Nat.not_lt.2 hle)]

/-- The bytes of a NOTICE_CLEAR's body, from one of its entries on. -/
theorem drop_clearBody {j : Nat} (hlen : ∀ e ∈ es, e.2.2.length = 18) (hj : es[j]? = some e) :
    (BitVec.ofNat 8 es.length :: es.flatMap entryBytes).drop (1 + 20 * j) = entryBytes e ++ (es.drop (j + 1)).flatMap entryBytes := by
  have hwidth : ∀ e ∈ es, (entryBytes e).length = 20 := fun e he => by simp [entryBytes, hlen e he]
  have h := drop_flatMap_entries (pre := [BitVec.ofNat 8 es.length]) (post := []) hwidth hj
  simpa only [List.append_nil, List.singleton_append, List.length_singleton] using h

theorem u1At_clearBody (hmax : es.length ≤ 6) : u1At (BitVec.ofNat 8 es.length :: es.flatMap entryBytes) 0 = es.length :=
  (BitVec.toNat_ofNat ..).trans (Nat.mod_eq_of_lt (by omega))

theorem clearEntries_of_bad (hmin : 1 ≤ es.length) (hmax : es.length ≤ 6) (hlen : ∀ e ∈ es, e.2.2.length = 18)
    (hbad : ∃ e ∈ es, 6 ≤ e.1.toNat ∨ ∃ m, groupFlagCounts[e.1.toNat]? = some m ∧ 2 ^ m ≤ e.2.1.toNat) :
    clearEntries (BitVec.ofNat 8 es.length :: es.flatMap entryBytes) = none := by
  obtain ⟨e, he, hbad⟩ := hbad
  obtain ⟨j, hj⟩ := List.mem_iff_getElem?.1 he
  have hlt : j < es.length := (List.getElem?_eq_some_iff.1 hj).1
  have hnone := clearEntryAt_of_bad (drop_clearBody hlen hj) (hlen e he) hbad
  rw [clearEntries, u1At_clearBody hmax, if_pos ⟨hmin, hmax⟩, ← Option.not_isSome_iff_eq_none, allSome_isSome_iff]
  intro hall
  have := hall _ (List.mem_map.2 ⟨j, List.mem_range.2 hlt, hnone⟩)
  cases this

theorem clearEntries_of_ok (hmin : 1 ≤ es.length) (hmax : es.length ≤ 6) (hlen : ∀ e ∈ es, e.2.2.length = 18)
    (hok : ∀ e ∈ es, EntryOk e) :
    clearEntries (BitVec.ofNat 8 es.length :: es.flatMap entryBytes) = some (es.map entryOf) := by
  rw [clearEntries, u1At_clearBody hmax, if_pos ⟨hmin, hmax⟩, allSome_range_iff]
  refine ⟨List.length_map .., fun j x hx => ?_⟩
  rw [List.getElem?_map, Option.map_eq_some_iff] at hx
  obtain ⟨e, he, rfl⟩ := hx
  exact clearEntryAt_of_ok (drop_clearBody hlen he) (hlen e (List.mem_of_getElem? he)) (hok e (List.mem_of_getElem? he))

/-! ### What a NOTICE_CLEAR clears, in the words of its body -/

theorem entryOf_group_iff (hok : EntryOk e) (g : Group) : (entryOf e).group = g ↔ e.1 = BitVec.ofNat 8 g.code := by
  obtain ⟨h, hh, -⟩ := hok.exists_group
  have hcode : h.code = e.1.toNat := Group.code_of_getElem? hh
  have hgroup : (entryOf e).group = h := by rw [entryOf, hh, Option.getD_some]
  rw [hgroup, ← BitVec.toNat_inj, ← hcode]
  cases h <;> cases g <;> decide

theorem any_entryOf (hok : ∀ e ∈ es, EntryOk e) (g : Group) (k : Nat) :
    ((es.map entryOf).any fun x => decide (x.group = g) && x.flags.testBit k) =
      es.any fun e => decide (e.1 = BitVec.ofNat 8 g.code) && e.2.1.getLsbD k := by
  rw [List.any_map, Bool.eq_iff_iff, List.any_eq_true, List.any_eq_true]
  refine exists_congr fun e => and_congr_right fun he => ?_
  simp only [Function.comp_apply, entryOf_group_iff (hok e he), Bool.and_eq_true]
  rfl

theorem clearUnion_entries_testBit (hok : ∀ e ∈ es, EntryOk e) (g : Group) (k : Nat) :
    (clearUnion g (es.map entryOf)).1.testBit k = es.any fun e => decide (e.1 = BitVec.ofNat 8 g.code) && e.2.1.getLsbD k := by
  rw [clearUnion_testBit, any_entryOf hok]

theorem clearMask_entries {w : Nat} (hok : ∀ e ∈ es, EntryOk e) (hlen : ∀ e ∈ es, e.2.2.length = 18) (g : Group) (m : BitVec w)
    (j k o : Nat) :
    clearMask w (clearUnion g (es.map entryOf)).1 j (uAt k (clearUnion g (es.map entryOf)).2 o) m =
      if (es.any fun e => decide (e.1 = BitVec.ofNat 8 g.code) && e.2.1.getLsbD j) then
        (es.filter fun e => e.1 = BitVec.ofNat 8 g.code).foldl (fun m e => m &&& ~~~ BitVec.ofNat w (uAt k e.2.2 o)) m
      else m := by
  have hbits : ∀ x ∈ es.map entryOf, x.bits.length = 18 := by
    intro x hx
    obtain ⟨e, he, rfl⟩ := List.mem_map.1 hx
    exact hlen e he
  have hfilter : (es.map entryOf).filter (fun x => x.group = g) =
      (es.filter fun e => e.1 = BitVec.ofNat 8 g.code).map entryOf := by
    rw [List.filter_map]
    exact congrArg _ (List.filter_congr fun e he => decide_eq_decide.2 (entryOf_group_iff (hok e he) g))
  rw [clearMask_clearUnion hbits, any_entryOf hok, hfilter, List.foldl_map]
  rfl

theorem clearDetail_entries {α : Type} (hok : ∀ e ∈ es, EntryOk e) (g : Group) (k : Nat) (d : Option α) :
    clearDetail (clearUnion g (es.map entryOf)).1 k d =
      if (es.any fun e => decide (e.1 = BitVec.ofNat 8 g.code) && e.2.1.getLsbD k) then none else d := by
  rw [clearDetail, clearUnion_entries_testBit hok]

/-! ### The request -/

theorem exec_noticeClear (s : State) : exec .noticeClear s = .next (serveKind .noticeClear ownNoticeClear s) := rfl

theorem exec_noticeClear_of_length (htake : CanTake s f rest) (hkind : f.kind = 0x61) (h : f.body.length = 1 + 20 * u1At f.body 0) :
    exec .noticeClear s = .next (ownNoticeClear f (s.takenInFlight rest)) := by
  have hlen : Kind.noticeClear.lengthOk f.body = true := by
    simp only [Kind.lengthOk, h, Bool.and_eq_true, decide_eq_true_eq, beq_iff_eq, and_true]
    omega
  rw [exec_noticeClear, serveKind_of_servedInSetup htake (by rw [hkind]; rfl) hlen rfl (by decide)]

theorem ownNoticeClear_of_none (h : clearEntries f.body = none) :
    ownNoticeClear f (s.takenInFlight rest) = s.replied f rest .badArg [] := by
  rw [ownNoticeClear, h]
  rfl

theorem ownNoticeClear_of_some {xs : List ClearEntry} (h : clearEntries f.body = some xs) :
    ownNoticeClear f (s.takenInFlight rest) = State.replied f rest .ok [] { s with notices := s.notices.clear xs } := by
  rw [ownNoticeClear, h]
  rfl

theorem length_clearBody (hmax : es.length ≤ 6) (hlen : ∀ e ∈ es, e.2.2.length = 18) :
    (BitVec.ofNat 8 es.length :: es.flatMap entryBytes).length =
      1 + 20 * u1At (BitVec.ofNat 8 es.length :: es.flatMap entryBytes) 0 := by
  have hwidth : es.map (fun e => (entryBytes e).length) = es.map fun _ => 20 :=
    List.map_congr_left fun e he => by simp [entryBytes, hlen e he]
  rw [u1At_clearBody hmax, List.length_cons, List.length_flatMap, hwidth, List.map_const', List.sum_replicate, smul_eq_mul]
  omega

end

/-- Settles O43: a count out of range and a bad entry refuse the whole request; else the entries of each group, joined, are cleared one
by one. -/
theorem noticeClearClearsWhatItNames : Obligations.NoticeClearClearsWhatItNames := by
  intro s f rest htake hkind
  refine ⟨fun n es hbody hlen hcount => ?_, fun es hmin hmax hlen hbody => ⟨fun hbad => ?_, fun hok => ?_⟩⟩
  · have hn : u1At f.body 0 = n.toNat := by rw [hbody]; rfl
    have hrange : ¬ (1 ≤ u1At f.body 0 ∧ u1At f.body 0 ≤ 6) := by
      rw [hn]
      obtain rfl | h := hcount
      · exact fun h => absurd h.1 (by decide)
      · exact fun h' => Nat.not_lt.2 h'.2 h
    rw [exec_noticeClear_of_length htake hkind (by rw [hn, hbody, List.length_cons, hlen, Nat.add_comm]),
      ownNoticeClear_of_none (if_neg hrange)]
  · have hbody' : f.body = BitVec.ofNat 8 es.length :: es.flatMap entryBytes := hbody
    rw [exec_noticeClear_of_length htake hkind (by rw [hbody']; exact length_clearBody hmax hlen),
      ownNoticeClear_of_none (by rw [hbody']; exact clearEntries_of_bad hmin hmax hlen hbad)]
  · intro n named mask
    have hbody' : f.body = BitVec.ofNat 8 es.length :: es.flatMap entryBytes := hbody
    rw [exec_noticeClear_of_length htake hkind (by rw [hbody']; exact length_clearBody hmax hlen),
      ownNoticeClear_of_some (by rw [hbody']; exact clearEntries_of_ok hmin hmax hlen hok), Notices.clear_eq]
    simp only [clearMask_entries hok hlen, clearDetail_entries hok, clearUnion_entries_testBit hok]
    rfl

end Sys2Proof.Machine
end

section
/-! The service event with a write access that is wholly served already: obligation O40 fails there. Its clause on a FAR LINE_WRITE does not
ask for a word yet to be served; a slot then still writes position 0 of the line, which no word of the access names. -/

namespace Sys2Proof.Machine

/-- A line of one FAR page, page 0. -/
def servedLine : LineRun := { w := 1, f := 1, pool := .far, pages := [0] }

/-- The instance that holds it. -/
def servedRunning : Running :=
  { lines := [servedLine], taps := [], lfo0 := ⟨0, 1⟩, lfo1 := ⟨0, 1⟩, inGain := 0, outGain := 0, cost := 1, windowProgress := 0,
    windowPeak := 0 }

/-- A LINE_WRITE of one word, which has been served. -/
def servedAccess : LineAccess :=
  { tag := 9, op := .write [5], inst := 0, line := 0, pool := .far, positions := [1], served := 1, got := [], bad := 0,
    frameSeen := true }

/-- That access still in flight, with one leftover slot due and the sample 7 in the first word of the DRAM. -/
def servedState : State :=
  { State.reset with
    instances := State.reset.instances.set 0 { Inst.emptyWith Routing.none with state := .held, running := some servedRunning },
    dram := [(0, validWord 7)], access := some servedAccess, serviceDue := some 1 }

theorem servedState_serviceInv : ServiceInv servedState where
  count := by decide
  distinct := by decide
  corrected := by decide
  uncorrectable := by decide
  dropped := by decide

/-- The slot writes 0 into the line's first word. -/
theorem servedState_service_dramWord : (servedState.service []).dramWord 0 = validWord 0 := by decide +kernel

theorem exec_serviceEvent_servedState : exec (.serviceEvent []) servedState = .next (servedState.service []) := rfl

/-- Refutes O40: of a FAR LINE_WRITE whose words have all been served, a further slot overwrites a word that is neither a word of the
access nor a queued write-back. -/
theorem not_serviceEventSpendsItsSlots : ¬ Obligations.ServiceEventSpendsItsSlots := by
  intro h
  obtain ⟨-, hdue⟩ := h servedState [] rfl
  obtain ⟨-, -, -, -, hwrite, -⟩ := hdue 1 rfl servedState_serviceInv
  obtain ⟨t, hexec, -, -, -, -, -, hwords, -⟩ := hwrite servedAccess [5] rfl rfl rfl (Nat.zero_le 1)
  obtain ⟨-, -, hother⟩ := hwords servedRunning servedLine rfl rfl (by decide)
  have ht : t = servedState.service [] := by
    rw [exec_serviceEvent_servedState] at hexec
    exact (Host.Outcome.next.inj hexec).symm
  have hkept : t.dramWord 0 = (servedState.upsets []).dramWord 0 := hother 0 (by decide) (by decide)
  rw [ht, servedState_service_dramWord] at hkept
  exact absurd hkept (by decide +kernel)

end Sys2Proof.Machine
end

section
/-! One frame of one instance (R28, R39 to R45, R110, R155, R156): the words it reads and writes, as a memory of places (for O50, O53 and O45). -/

namespace Sys2Proof.Machine

/-! ### Both memories as words at places -/

/-- The word at a place; a NEAR word, which has no code, stands with code 0. -/
def State.wordAt (s : State) (z : Pool × Nat) : DramWord :=
  match z.1 with
  | .near => { sample := s.nearWord z.2, code := 0 }
  | .far => s.dramWord z.2

/-- The word that a sample written to a pool makes (R2, R149). -/
def wordOf : Pool → Int → DramWord
  | .near, v => { sample := BitVec.ofInt 24 v, code := 0 }
  | .far, v => validWord v

section
variable {s t : State}

theorem State.wordAt_near (s : State) (a : Nat) : s.wordAt (.near, a) = { sample := s.nearWord a, code := 0 } := rfl
theorem State.wordAt_far (s : State) (a : Nat) : s.wordAt (.far, a) = s.dramWord a := rfl

theorem State.wordAt_near_inj {a b : Nat} : s.wordAt (.near, a) = t.wordAt (.near, b) ↔ s.nearWord a = t.nearWord b :=
  ⟨fun h => congrArg DramWord.sample h, fun h => congrArg (fun x => ({ sample := x, code := 0 } : DramWord)) h⟩

theorem State.wordAt_congr (hnear : t.near = s.near) (hdram : t.dram = s.dram) (hups : t.powerUps = s.powerUps) : t.wordAt = s.wordAt := by
  funext ⟨p, a⟩
  cases p with
  | near => rw [State.wordAt_near, State.wordAt_near, State.nearWord, State.nearWord, hnear, hups]
  | far => rw [State.wordAt_far, State.wordAt_far, State.dramWord, State.dramWord, hdram, hups]

theorem State.wordAt_writeWord (s : State) (p : Pool) (a : Nat) (v : Int) :
    (s.writeWord p a v).wordAt = Function.update s.wordAt (p, a) (wordOf p v) := by
  funext ⟨q, b⟩
  rw [Function.update_apply]
  cases p with
  | near =>
    cases q with
    | near =>
      rw [State.writeWord_near, State.wordAt_near, State.nearWord_writeNear]
      by_cases h : b = a <;> simp [h, wordOf, State.wordAt_near]
    | far => simp [State.writeWord_near, State.wordAt_far]; rfl
  | far =>
    cases q with
    | near => simp [State.writeWord_far, State.wordAt_near]; rfl
    | far =>
      rw [State.writeWord_far, State.wordAt_far, State.dramWord_writeDram]
      by_cases h : b = a
      · simp [h, wordOf]
      · simp only [h, Prod.mk.injEq, and_false, if_false]
        rfl

end

/-! ### Words written one after the other -/

/-- A memory after writes, each a place and its sample. -/
def written (ws : List ((Pool × Nat) × Int)) (m : Pool × Nat → DramWord) : Pool × Nat → DramWord :=
  ws.foldl (fun m w => Function.update m w.1 (wordOf w.1.1 w.2)) m

section
variable {ws ws' : List ((Pool × Nat) × Int)} {m : Pool × Nat → DramWord} {z : Pool × Nat} {v : Int}

theorem written_cons (w : (Pool × Nat) × Int) : written (w :: ws) m = written ws (Function.update m w.1 (wordOf w.1.1 w.2)) := rfl

theorem written_append : written (ws ++ ws') m = written ws' (written ws m) := List.foldl_append

theorem written_of_notMem (h : z ∉ ws.map Prod.fst) : written ws m z = m z := by
  induction ws generalizing m with
  | nil => rfl
  | cons w ws ih =>
    rw [List.map_cons, List.mem_cons, not_or] at h
    rw [written_cons, ih h.2, Function.update_of_ne h.1]

theorem written_of_mem (hnodup : (ws.map Prod.fst).Nodup) (h : (z, v) ∈ ws) : written ws m z = wordOf z.1 v := by
  induction ws generalizing m with
  | nil => cases h
  | cons w ws ih =>
    rw [List.map_cons, List.nodup_cons] at hnodup
    rw [written_cons]
    obtain rfl | h := List.mem_cons.1 h
    · rw [written_of_notMem hnodup.1, Function.update_self]
    · exact ih hnodup.2 h

end

/-! ### The line writes of an instance (R28, R43) -/

/-- The place a line is written at: its position W. -/
def LineRun.head (l : LineRun) : Pool × Nat := (l.pool, translate l.pages l.w)

/-- The line writes of an instance, in line order, from the accumulators. -/
def lineWrites (ls : List LineRun) (accs : List Int) : List ((Pool × Nat) × Int) :=
  List.zipWith (fun l acc => (l.head, sat24 (round15 acc))) ls accs

theorem lineWrites_cons (l : LineRun) (ls : List LineRun) (acc : Int) (accs : List Int) :
    lineWrites (l :: ls) (acc :: accs) = (l.head, sat24 (round15 acc)) :: lineWrites ls accs := rfl

theorem lineWrites_fst {ls : List LineRun} {accs : List Int} (h : ls.length ≤ accs.length) :
    (lineWrites ls accs).map Prod.fst = ls.map LineRun.head := by
  induction ls generalizing accs with
  | nil => rfl
  | cons l ls ih =>
    cases accs with
    | nil => cases h
    | cons acc accs => rw [lineWrites_cons, List.map_cons, ih (Nat.le_of_succ_le_succ h), List.map_cons]

theorem writeLines_wordAt (ls : List LineRun) (accs : List Int) (s : State) :
    (writeLines ls accs s).wordAt = written (lineWrites ls accs) s.wordAt := by
  induction ls generalizing accs s with
  | nil => rfl
  | cons l ls ih =>
    cases accs with
    | nil => rfl
    | cons acc accs =>
      rw [lineWrites_cons, written_cons, writeLines, ih, State.wordAt_writeWord]
      rfl

/-- A line write takes its own write-back off the queue and no other (R155). -/
theorem mem_corrections_writeLines {ls : List LineRun} {accs : List Int} {s : State} {e : WriteBack} :
    e ∈ (writeLines ls accs s).corrections ↔ e ∈ s.corrections ∧ (Pool.far, e.addr) ∉ (lineWrites ls accs).map Prod.fst := by
  induction ls generalizing accs s with
  | nil => exact ⟨fun h => ⟨h, List.not_mem_nil⟩, And.left⟩
  | cons l ls ih =>
    cases accs with
    | nil => exact ⟨fun h => ⟨h, List.not_mem_nil⟩, And.left⟩
    | cons acc accs =>
      rw [writeLines, ih, lineWrites_cons, List.map_cons, List.mem_cons, not_or, ← and_assoc]
      refine and_congr_left fun _ => ?_
      obtain ⟨w, f, pool, pages⟩ := l
      cases pool with
      | near => simp [State.writeWord_near, LineRun.head]
      | far => simp [State.writeWord_far, LineRun.head, State.cancelWriteBack]

theorem writeLines_keeps (ls : List LineRun) (accs : List Int) (s : State) :
    (writeLines ls accs s).errors = s.errors ∧ (writeLines ls accs s).notices = s.notices ∧
      (writeLines ls accs s).instances = s.instances := by
  induction ls generalizing accs s with
  | nil => exact ⟨rfl, rfl, rfl⟩
  | cons l ls ih =>
    cases accs with
    | nil => exact ⟨rfl, rfl, rfl⟩
    | cons acc accs =>
      obtain ⟨herrors, hnotices, hinst⟩ := ih accs (s.writeWord l.pool (translate l.pages l.w) (sat24 (round15 acc)))
      rw [writeLines, herrors, hnotices, hinst]
      cases l.pool <;> exact ⟨rfl, rfl, rfl⟩

/-! ### The taps' reads (R35, R44, R156) -/

section
variable {c : FrameCtx} {s t : State}

/-- A sample is read from its own word alone. -/
theorem sourceSample_congr {l : LineRun} {k : Nat}
    (h : k ≤ l.f → s.wordAt (l.pool, translate l.pages (posBack l.w k l.len)) = t.wordAt (l.pool, translate l.pages (posBack l.w k l.len))) :
    sourceSample l k s = sourceSample l k t := by
  by_cases hk : l.f < k
  · rw [sourceSample_of_beyond hk, sourceSample_of_beyond hk]
  · have hword := h (Nat.le_of_not_lt hk)
    cases hpool : l.pool with
    | near =>
      rw [hpool, State.wordAt_near_inj] at hword
      rw [sourceSample_of_near hpool, sourceSample_of_near hpool, hword]
    | far =>
      rw [hpool, State.wordAt_far, State.wordAt_far] at hword
      rw [sourceSample_of_far hpool (Nat.le_of_not_lt hk), sourceSample_of_far hpool (Nat.le_of_not_lt hk), hword]

theorem tapFrame_congr {q : TapProg} {u : TapRun} (h : ∀ k, sourceSample (c.lineOf q) k s = sourceSample (c.lineOf q) k t) :
    tapFrame c q u s = tapFrame c q u t := by
  rw [tapFrame, tapFrame, tapRead, tapRead, h, h]

theorem tapService_wordAt (l : LineRun) (d : Nat) (s : State) : (tapService l d s).wordAt = s.wordAt :=
  State.wordAt_congr (tapService_memory l d s).1 (tapService_memory l d s).2 (sameBeside_tapService l d s).powerUps

/-- No tap's read changes what another reads: each tap reads the state before the frame (R44). -/
theorem tapsFrame_eq (c : FrameCtx) (qs : List TapProg) (us : List TapRun) (s : State) :
    tapsFrame c qs us s = (List.zipWith (fun q u => tapFrame c q u s) qs us,
      (qs.zip (List.zipWith (fun q u => tapFrame c q u s) qs us)).foldl (fun t z => tapService (c.lineOf z.1) z.2.delay t) s) := by
  induction qs generalizing us s with
  | nil => rfl
  | cons q qs ih =>
    cases us with
    | nil => rfl
    | cons u us =>
      have hsame : (fun q' u' => tapFrame c q' u' (tapService (c.lineOf q) (tapFrame c q u s).delay s)) = fun q' u' => tapFrame c q' u' s := by
        funext q' u'
        exact tapFrame_congr fun k => sourceSample_congr fun _ => by rw [tapService_wordAt]
      rw [tapsFrame, ih, hsame]
      rfl

/-! ### What the taps leave of the notices -/

/-- The notices but for the details of the MEMORY group. -/
def Notices.besideMemory (n : Notices) : Notices :=
  { n with corrected := none, uncorrectable := none, dropped := none }

theorem Notices.besideMemory_raise {c : Condition} (h : c.group = .memory) (n : Notices) : (n.raise c).besideMemory = n.besideMemory := by
  obtain hr | hr := n.raise_cases c
  · rw [hr]
  · rw [hr]
    cases c with
    | corrected l | uncorrectable l | dropped a => rfl
    | _ => cases h

theorem countRead_besideMemory (x : ReadOutcome × Option Nat) (s : State) : (countRead x s).notices.besideMemory = s.notices.besideMemory := by
  unfold countRead
  split
  · exact Notices.besideMemory_raise rfl _
  · next a _ _ =>
    rw [State.countUncorrectable_eq]
    exact Notices.besideMemory_raise rfl _
  · rfl

theorem offerRead_besideMemory (x : ReadOutcome × Option Nat) (s : State) : (offerRead x s).notices.besideMemory = s.notices.besideMemory := by
  unfold offerRead
  split
  · next v a _ _ =>
    obtain ⟨-, h⟩ | ⟨-, -, h⟩ | ⟨-, -, h⟩ := State.offer_cases a v s <;> rw [h]
    exact Notices.besideMemory_raise rfl _
  · rfl

theorem tapService_besideMemory (l : LineRun) (d : Nat) (s : State) : (tapService l d s).notices.besideMemory = s.notices.besideMemory := by
  obtain h | h := tapService_cases (l := l) (d := d) (s := s) rfl rfl
  · rw [h, countRead_besideMemory, countRead_besideMemory]
  · rw [h, offerRead_besideMemory, offerRead_besideMemory, countRead_besideMemory, countRead_besideMemory]

theorem tapsFrame_besideMemory (c : FrameCtx) (qs : List TapProg) (us : List TapRun) (s : State) :
    (tapsFrame c qs us s).2.notices.besideMemory = s.notices.besideMemory := by
  induction qs generalizing us s with
  | nil => rfl
  | cons q qs ih =>
    cases us with
    | nil => rfl
    | cons u us =>
      rw [tapsFrame, ih, tapService_besideMemory]

theorem tapsFrame_wordAt (c : FrameCtx) (qs : List TapProg) (us : List TapRun) (s : State) : (tapsFrame c qs us s).2.wordAt = s.wordAt :=
  State.wordAt_congr (tapsFrame_memory c qs us s).1 (tapsFrame_memory c qs us s).2 (sameBeside_tapsFrame c qs us s).powerUps

end

end Sys2Proof.Machine
end

section
/-! One frame of one instance, field by field (R28, R39 to R45, R110): obligation O50. -/

namespace Sys2Proof.Machine

/-! ### Clamps (R40) -/

theorem sat24Clamps_iff {v : Int} : sat24Clamps v = true ↔ v < -8388608 ∨ 8388607 < v := by
  unfold sat24Clamps sat24 clampInt
  rw [bne_iff_ne]
  split <;> [skip; split] <;> omega

/-- The output gain stage never clamps (R41). -/
theorem outputGain_mem {v : Int} {g : Nat} (hv : -8388608 ≤ v ∧ v ≤ 8388607) (hg : g ≤ 32767) :
    -8388352 ≤ round15 (v * (g : Int)) ∧ round15 (v * (g : Int)) ≤ 8388351 := by
  have hlo : -8388608 * 32767 ≤ v * (g : Int) := by nlinarith
  have hhi : v * (g : Int) ≤ 8388607 * 32767 := by nlinarith
  unfold round15
  omega

theorem sat24_mem (x : Int) : -8388608 ≤ sat24 x ∧ sat24 x ≤ 8388607 := by
  unfold sat24 clampInt
  split <;> [skip; split] <;> omega

theorem sat24_of_mem {x : Int} (h : -8388608 ≤ x ∧ x ≤ 8388607) : sat24 x = x := by
  unfold sat24 clampInt
  split <;> [skip; split] <;> omega

theorem Inst.closeWindow_clip (x : Inst) : x.closeWindow.clip = x.clip := by
  obtain h | ⟨y, hy⟩ := Option.eq_none_or_eq_some x.running
  · rw [Inst.closeWindow_of_lt fun r hr => by rw [h] at hr; cases hr]
  · by_cases hw : 256 ≤ y.windowProgress
    · rw [Inst.closeWindow_of_complete hy hw]
      obtain ⟨_, -, -, hend⟩ | ⟨hend, -⟩ := Inst.windowEnd_cases hy <;> rw [hend] <;> rfl
    · rw [Inst.closeWindow_of_lt fun r hr => by rw [hy] at hr; cases hr; omega]

/-! ### The parts of an instance's frame -/

section
variable (rate : SampleRate) (i : InstNo) (x : Inst) (p : Program) (y : Running) (s : State)

/-- The taps of an instance's frame, each reading the state before it (R44). -/
def frameTaps : List TapOut :=
  List.zipWith (fun t u => tapFrame (frameCtx rate i x p y s) t u s) p.taps y.taps

/-- Its input gain. -/
def frameInGain : Nat := moveNat (inStep x.state) y.inGain (inTarget x.state p)

/-- Its output gain. -/
def frameOutGain : Nat := moveNat 512 y.outGain (outTarget x.state p)

/-- The accumulators of its lines. -/
def frameAccs : List Int := x.accs s.ports.inputs p (frameTaps rate i x p y s) (frameInGain x p y)

/-- An output of it, from the taps with a destination. -/
def frameOutput (d : Dest) : Int :=
  sat24 (round15 (mixOutput (destSum d p.taps (frameTaps rate i x p y s)) * (frameOutGain x p y : Int)))

/-- Whether anything of it clamps (R40, R41, R43). -/
def frameClips : Bool :=
  sat24Clamps (round15 (destSum .outA p.taps (frameTaps rate i x p y s)))
    || sat24Clamps (round15 (mixOutput (destSum .outA p.taps (frameTaps rate i x p y s)) * (frameOutGain x p y : Int)))
    || sat24Clamps (round15 (destSum .outB p.taps (frameTaps rate i x p y s)))
    || sat24Clamps (round15 (mixOutput (destSum .outB p.taps (frameTaps rate i x p y s)) * (frameOutGain x p y : Int)))
    || (frameAccs rate i x p y s).any fun a => sat24Clamps (round15 a)

/-- The state after its taps' reads. -/
def frameReads : State :=
  (p.taps.zip (frameTaps rate i x p y s)).foldl
    (fun t z => tapService ((frameCtx rate i x p y s).lineOf z.1) z.2.delay t) s

/-- The state after its reads and its line writes. -/
def frameWrites : State := writeLines y.lines (frameAccs rate i x p y s) (frameReads rate i x p y s)

/-- The running fields after it, before the window is looked at. -/
def frameRunning : Running :=
  { y with
    lines := y.lines.map LineRun.advance, taps := (frameTaps rate i x p y s).map TapOut.run, lfo0 := y.lfo0.advance,
    lfo1 := y.lfo1.advance, inGain := frameInGain x p y, outGain := frameOutGain x p y, windowProgress := y.windowProgress + 1,
    windowPeak := max y.windowPeak (max (frameOutput rate i x p y s .outA).natAbs (frameOutput rate i x p y s .outB).natAbs) }

/-- The instance after it, before the window is looked at. -/
def frameInst : Inst :=
  { x with
    running := some (frameRunning rate i x p y s), clip := frameClips rate i x p y s,
    releaseDue := x.releaseDue || (x.state == .cutting && frameOutGain x p y == 0) }

theorem tapsFrame_frame : tapsFrame (frameCtx rate i x p y s) p.taps y.taps s = (frameTaps rate i x p y s, frameReads rate i x p y s) :=
  tapsFrame_eq (frameCtx rate i x p y s) p.taps y.taps s

/-- One frame of one instance by its parts. -/
theorem instFrame_eq : instFrame rate i x p y s =
    { inst := (frameInst rate i x p y s).closeWindow, outA := frameOutput rate i x p y s .outA,
      outB := frameOutput rate i x p y s .outB,
      state := if frameClips rate i x p y s then (frameWrites rate i x p y s).raise (.clipped i) else frameWrites rate i x p y s } := by
  unfold instFrame
  rw [tapsFrame_frame]
  rfl

theorem frameReads_wordAt : (frameReads rate i x p y s).wordAt = s.wordAt := by
  have h := tapsFrame_wordAt (frameCtx rate i x p y s) p.taps y.taps s
  rwa [tapsFrame_frame] at h

theorem frameReads_besideMemory : (frameReads rate i x p y s).notices.besideMemory = s.notices.besideMemory := by
  have h := tapsFrame_besideMemory (frameCtx rate i x p y s) p.taps y.taps s
  rwa [tapsFrame_frame] at h

theorem instFrame_state_wordAt :
    (instFrame rate i x p y s).state.wordAt = written (lineWrites y.lines (frameAccs rate i x p y s)) s.wordAt := by
  rw [instFrame_eq, ← frameReads_wordAt rate i x p y s, ← writeLines_wordAt]
  dsimp only
  split <;> rfl

theorem instFrame_state_corrections :
    (instFrame rate i x p y s).state.corrections = (frameWrites rate i x p y s).corrections := by
  rw [instFrame_eq]
  dsimp only
  split <;> rfl

theorem instFrame_state_errors : (instFrame rate i x p y s).state.errors = (frameReads rate i x p y s).errors := by
  rw [← (writeLines_keeps y.lines (frameAccs rate i x p y s) (frameReads rate i x p y s)).1, instFrame_eq]
  dsimp only
  split <;> rfl

theorem Notices.besideMemory_raise_clipped (n : Notices) :
    (n.raise (.clipped i)).besideMemory = n.besideMemory.raise (.clipped i) := by
  unfold Notices.raise
  show (if n.instCfg.enabled then n.latch (.clipped i) else n).besideMemory = if n.instCfg.enabled then _ else _
  split <;> rfl

theorem instFrame_state_notices :
    (instFrame rate i x p y s).state.notices.besideMemory =
      if frameClips rate i x p y s then s.notices.besideMemory.raise (.clipped i) else s.notices.besideMemory := by
  have hwrites : (frameWrites rate i x p y s).notices = (frameReads rate i x p y s).notices := (writeLines_keeps ..).2.1
  have hreads := frameReads_besideMemory rate i x p y s
  rw [instFrame_eq, ← hreads, ← hwrites]
  dsimp only
  split
  · exact Notices.besideMemory_raise_clipped i _
  · rfl

theorem Notices.clipped_raise (n : Notices) :
    (n.raise (.clipped i)).clipped = if n.instCfg.enabled = true then n.clipped ||| 1#24 <<< i.val else n.clipped := by
  rw [← instBit_eq_shiftLeft, Notices.raise]
  show (if n.instCfg.enabled = true then n.latch (.clipped i) else n).clipped = _
  split <;> rfl

/-! ### Accumulators -/

theorem inputOf_eq (inputs : Vector Int 32) (route : Option PortNo) : inputOf inputs route = (route.map fun k => inputs[k.val]).getD 0 := by
  cases route <;> rfl

theorem lineAccs_length (os : List TapOut) (g : Nat) (a b : Int) : (lineAccs p os g a b).length = p.lines.length := by
  rw [lineAccs, List.length_map, List.length_zipIdx]

theorem lineAccs_getElem? (os : List TapOut) (g : Nat) (a b : Int) (j : Nat) :
    (lineAccs p os g a b)[j]? = p.lines[j]?.map fun l => fedInput l.feed a b * (g : Int) + destSum (.line j) p.taps os := by
  rw [lineAccs, List.getElem?_map, List.getElem?_zipIdx, Option.map_map, Nat.zero_add]
  rfl

/-! ### The clip flag -/

variable {rate i x p y s}

theorem instFrame_clip : (instFrame rate i x p y s).inst.clip = frameClips rate i x p y s := by
  rw [instFrame_eq]
  exact Inst.closeWindow_clip _

theorem frameAccs_getElem? (j : Nat) :
    (frameAccs rate i x p y s)[j]? = p.lines[j]?.map fun l =>
      fedInput l.feed (inputOf s.ports.inputs x.routing.inA) (inputOf s.ports.inputs x.routing.inB) * (frameInGain x p y : Int) +
        destSum (.line j) p.taps (frameTaps rate i x p y s) :=
  lineAccs_getElem? p _ _ _ _ j

theorem frameAccs_length : (frameAccs rate i x p y s).length = p.lines.length := lineAccs_length p _ _ _ _

theorem frameClips_iff (hgain : frameOutGain x p y ≤ 32767) :
    frameClips rate i x p y s = true ↔
      sat24Clamps (round15 (destSum .outA p.taps (frameTaps rate i x p y s))) = true ∨
      sat24Clamps (round15 (destSum .outB p.taps (frameTaps rate i x p y s))) = true ∨
      ∃ a ∈ frameAccs rate i x p y s, sat24Clamps (round15 a) = true := by
  have hnever (v : Int) : sat24Clamps (round15 (mixOutput v * (frameOutGain x p y : Int))) = false := by
    have hmem := outputGain_mem (sat24_mem (round15 v)) hgain
    rw [← Bool.not_eq_true, sat24Clamps_iff]
    show ¬ (round15 (sat24 (round15 v) * _) < _ ∨ _ < round15 (sat24 (round15 v) * _))
    omega
  rw [frameClips, hnever, hnever, Bool.or_false, Bool.or_false, Bool.or_eq_true, Bool.or_eq_true, List.any_eq_true, or_assoc]

theorem frameOutput_mem (hgain : frameOutGain x p y ≤ 32767) (d : Dest) :
    -8388352 ≤ frameOutput rate i x p y s d ∧ frameOutput rate i x p y s d ≤ 8388351 := by
  have hmem := outputGain_mem (sat24_mem (round15 (destSum d p.taps (frameTaps rate i x p y s)))) hgain
  have hout : frameOutput rate i x p y s d = _ := sat24_of_mem (by
    show -8388608 ≤ round15 (sat24 (round15 _) * _) ∧ round15 (sat24 (round15 _) * _) ≤ 8388607
    omega)
  rw [hout]
  exact hmem

/-! ### The words written (R28, R155) -/

/-- Lines that share no place, pool by pool, share none at all. -/
theorem nodup_heads {ls : List LineRun}
    (h : ∀ q, ((ls.filter fun l => l.pool = q).map fun l => translate l.pages l.w).Nodup) : (ls.map LineRun.head).Nodup := by
  induction ls with
  | nil => exact List.nodup_nil
  | cons l ls ih =>
    rw [List.map_cons, List.nodup_cons]
    refine ⟨fun hmem => ?_, ih fun q => ?_⟩
    · obtain ⟨k, hk, heq⟩ := List.mem_map.1 hmem
      have hq := h l.pool
      rw [List.filter_cons_of_pos (by simp), List.map_cons, List.nodup_cons] at hq
      refine hq.1 (List.mem_map.2 ⟨k, List.mem_filter.2 ⟨hk, ?_⟩, congrArg Prod.snd heq⟩)
      exact decide_eq_true (congrArg Prod.fst heq)
    · have hq := h q
      rw [List.filter_cons] at hq
      split at hq
      · exact (List.nodup_cons.1 hq).2
      · exact hq

theorem mem_heads {ls : List LineRun} {q : Pool} {a : Nat} :
    (q, a) ∈ ls.map LineRun.head ↔ a ∈ (ls.filter fun l => l.pool = q).map fun l => translate l.pages l.w := by
  simp only [List.mem_map, List.mem_filter, decide_eq_true_eq, LineRun.head, Prod.mk.injEq]
  exact exists_congr fun l => ⟨fun ⟨h, hq, ha⟩ => ⟨⟨h, hq⟩, ha⟩, fun ⟨⟨h, hq⟩, ha⟩ => ⟨h, hq, ha⟩⟩

theorem lineWrites_mem {ls : List LineRun} {accs : List Int} {j : Nat} {l : LineRun} {acc : Int} (hl : ls[j]? = some l)
    (ha : accs[j]? = some acc) : (l.head, sat24 (round15 acc)) ∈ lineWrites ls accs := by
  refine List.mem_of_getElem? (i := j) ?_
  rw [lineWrites, List.getElem?_zipWith, hl, ha]

/-- The fed input of a line in the words of R42. -/
theorem fedInput_eq (g : Feed) (a b : Int) :
    fedInput g a b = match g with
      | .none => 0
      | .a => a
      | .b => b
      | .mid => (a + b) / 2 := by
  cases g <;> rfl

/-- The clip flag, its accumulators line by line. -/
theorem exists_clamping_acc_iff {acc : Nat → LineProg → Int} (h : ∀ j, (frameAccs rate i x p y s)[j]? = p.lines[j]?.map (acc j)) :
    (∃ a ∈ frameAccs rate i x p y s, sat24Clamps (round15 a) = true) ↔
      ∃ j l, p.lines[j]? = some l ∧ sat24Clamps (round15 (acc j l)) = true := by
  constructor
  · rintro ⟨a, ha, hc⟩
    obtain ⟨j, hj⟩ := List.mem_iff_getElem?.1 ha
    rw [h, Option.map_eq_some_iff] at hj
    obtain ⟨l, hl, rfl⟩ := hj
    exact ⟨j, l, hl, hc⟩
  · rintro ⟨j, l, hl, hc⟩
    exact ⟨acc j l, List.mem_of_getElem? (i := j) (by rw [h, hl]; rfl), hc⟩

/-- The instance after its frame: the window end where the frame completes the window (R110). -/
theorem instFrame_inst_of_lt (h : y.windowProgress + 1 < 256) : (instFrame rate i x p y s).inst = frameInst rate i x p y s := by
  rw [instFrame_eq]
  refine Inst.closeWindow_of_lt (x := frameInst rate i x p y s) fun r hr => ?_
  cases hr
  exact h

theorem instFrame_inst_of_complete (h : 256 ≤ y.windowProgress + 1) :
    (instFrame rate i x p y s).inst = (frameInst rate i x p y s).windowEnd := by
  rw [instFrame_eq]
  exact Inst.closeWindow_of_complete (x := frameInst rate i x p y s) (r := frameRunning rate i x p y s) rfl h

/-- The CLIPPED bit of an instance's frame. -/
theorem instFrame_state_clipped :
    (instFrame rate i x p y s).state.notices.clipped =
      if (instFrame rate i x p y s).inst.clip = true ∧ s.notices.instCfg.enabled = true then s.notices.clipped ||| 1#24 <<< i.val
      else s.notices.clipped := by
  have h := congrArg Notices.clipped (instFrame_state_notices rate i x p y s)
  rw [instFrame_clip]
  refine h.trans ?_
  by_cases hclip : frameClips rate i x p y s = true
  · rw [if_pos hclip, Notices.clipped_raise]
    simp only [hclip, true_and]
    rfl
  · rw [if_neg hclip, if_neg fun h => hclip h.1]
    rfl

section
variable (hlen : y.lines.length = p.lines.length) (hnodup : (y.lines.map LineRun.head).Nodup)
include hlen

theorem lineWrites_frame_fst : (lineWrites y.lines (frameAccs rate i x p y s)).map Prod.fst = y.lines.map LineRun.head :=
  lineWrites_fst (by rw [frameAccs_length, hlen])

/-- A place that no line writes keeps its word. -/
theorem instFrame_wordAt_of_notMem {z : Pool × Nat} (h : z ∉ y.lines.map LineRun.head) :
    (instFrame rate i x p y s).state.wordAt z = s.wordAt z := by
  rw [instFrame_state_wordAt, written_of_notMem (by rwa [lineWrites_frame_fst hlen])]

include hnodup in
/-- Each line's write stands in its place. -/
theorem instFrame_wordAt_of_line {j : Nat} {l : LineRun} {acc : Int} (hl : y.lines[j]? = some l)
    (ha : (frameAccs rate i x p y s)[j]? = some acc) :
    (instFrame rate i x p y s).state.wordAt l.head = wordOf l.pool (sat24 (round15 acc)) := by
  rw [instFrame_state_wordAt, written_of_mem (by rwa [lineWrites_frame_fst hlen]) (lineWrites_mem hl ha)]
  rfl

theorem instFrame_corrections_ne {j : Nat} {l : LineRun} (hl : y.lines[j]? = some l) (hpool : l.pool = .far) :
    ∀ e ∈ (instFrame rate i x p y s).state.corrections, e.addr ≠ translate l.pages l.w := by
  intro e he haddr
  rw [instFrame_state_corrections, frameWrites, mem_corrections_writeLines, lineWrites_frame_fst hlen] at he
  refine he.2 (List.mem_map.2 ⟨l, List.mem_of_getElem? hl, ?_⟩)
  rw [LineRun.head, hpool, haddr]

end

end

/-- Settles O50: the frame's parts one by one, and the words of both memories after its writes. -/
theorem instanceFrameArithmetic : Obligations.InstanceFrameArithmetic := by
  intro rate i x p y s hlen c o taps sumTo inG outG inA inB fed acc clamps
  have ho : o = instFrame rate i x p y s := rfl
  have hfed (g : Feed) : fedInput g inA inB = fed g := fedInput_eq g inA inB
  have hacc (j : Nat) : (frameAccs rate i x p y s)[j]? = p.lines[j]?.map (acc j) := by
    rw [frameAccs_getElem?, inputOf_eq, inputOf_eq]
    exact congrArg (p.lines[j]?.map ·) (funext fun l => congrArg (· * (inG : Int) + sumTo (.line j)) (hfed l.feed))
  have houtA : o.outA = frameOutput rate i x p y s .outA := congrArg FrameOut.outA (instFrame_eq rate i x p y s)
  have houtB : o.outB = frameOutput rate i x p y s .outB := congrArg FrameOut.outB (instFrame_eq rate i x p y s)
  have hclip : o.inst.clip = frameClips rate i x p y s := instFrame_clip
  refine ⟨houtA, houtB, fun hg => ?_, fun hg => ?_, ⟨fun h => ?_, fun h => ?_⟩, instFrame_state_clipped, instFrame_state_errors ..,
    fun hnear hfar => ?_⟩
  · rw [houtA, houtB]
    exact ⟨(frameOutput_mem hg .outA).1, (frameOutput_mem hg .outA).2, (frameOutput_mem hg .outB).1, (frameOutput_mem hg .outB).2⟩
  · rw [instFrame_clip, frameClips_iff hg, exists_clamping_acc_iff hacc]
    simp only [sat24Clamps_iff]
    rfl
  · refine (instFrame_inst_of_lt h).trans ?_
    rw [hclip, houtA, houtB]
    rfl
  · refine (instFrame_inst_of_complete h).trans (congrArg Inst.windowEnd ?_)
    rw [hclip, houtA, houtB]
    rfl
  · have hheads : (y.lines.map LineRun.head).Nodup := nodup_heads fun q => by cases q <;> assumption
    have hacc' {j : Nat} {g : LineProg} (hg : p.lines[j]? = some g) : (frameAccs rate i x p y s)[j]? = some (acc j g) := by
      rw [hacc, hg]
      rfl
    refine ⟨fun j l g hl hg => ⟨fun hp => ?_, fun hp => ⟨?_, instFrame_corrections_ne hlen hl hp⟩⟩, fun a ha => ?_, fun a ha => ?_⟩
    · have hword := instFrame_wordAt_of_line hlen hheads hl (hacc' hg)
      rw [LineRun.head, hp] at hword
      exact congrArg DramWord.sample hword
    · have hword := instFrame_wordAt_of_line hlen hheads hl (hacc' hg)
      rwa [LineRun.head, hp] at hword
    · exact State.wordAt_near_inj.1 (instFrame_wordAt_of_notMem hlen (mt mem_heads.1 ha))
    · exact instFrame_wordAt_of_notMem hlen (z := (.far, a)) (mt mem_heads.1 ha)

end Sys2Proof.Machine
end

section
/-! The tap engine over all instances (R6, R24, R28, R44, R48): each instance's frame reads and writes words of its own, so that the order of
instances leaves no trace; for O53 and O45. -/

namespace Sys2Proof.Machine

/-! ### Words of its own -/

/-- What the tap engine needs of the instance table: an instance holds lines where its state and program say so, its taps read its lines,
every W lies on its line, and no two positions of two lines are one word. -/
structure Apart (s : State) : Prop where
  holds   : ∀ i, (s.inst i).running.isSome = (s.inst i).state.holdsPages
  program : ∀ i y, (s.inst i).running = some y →
    ∃ p, (s.inst i).program = some p ∧ y.lines.length = p.lines.length ∧ ∀ t ∈ p.taps, t.line < y.lines.length
  head    : ∀ i y, (s.inst i).running = some y → ∀ l ∈ y.lines, l.w < l.len
  apart   : ∀ (i i' : InstNo) (y y' : Running) (j j' : Nat) (l l' : LineRun) (k k' : Nat),
    (s.inst i).running = some y → y.lines[j]? = some l → k < l.len →
    (s.inst i').running = some y' → y'.lines[j']? = some l' → k' < l'.len →
    (l.pool, translate l.pages k) = (l'.pool, translate l'.pages k') → i = i' ∧ j = j'

/-- The page of a word that a line reaches is one of its pages. -/
theorem translate_div_mem {pages : List Nat} {k : Nat} (h : k < pages.length * 2048) : translate pages k / 2048 ∈ pages := by
  have hlt : k / 2048 < pages.length := by omega
  have hget : pages[k / 2048]? = some pages[k / 2048] := List.getElem?_eq_getElem hlt
  have hpage : translate pages k / 2048 = pages[k / 2048] := by
    rw [translate_of_page hget]
    omega
  rw [hpage]
  exact List.getElem_mem hlt

theorem PoolInv.owner_of_word {s : State} (hs : PoolInv s) {r : Run} (hrun : s.run = some r) {i : InstNo} {y : Running} {j : Nat}
    {l : LineRun} {k : Nat} (hy : (s.inst i).running = some y) (hl : y.lines[j]? = some l) (hk : k < l.len) :
    (r.owners l.pool)[translate l.pages k / 2048]? = some (some ⟨i, j⟩) := by
  rw [← (hs.pools r l.pool hrun).owned]
  simpa [Inst.pageList, hy, hl] using translate_div_mem hk

theorem PoolInv.apart {s : State} (hs : PoolInv s) (hr : RunningInv s) {r : Run} (hrun : s.run = some r) : Apart s where
  holds := hs.instances.holds
  program i y hy := by
    have hstate : (s.inst i).state ≠ .empty := fun h => by
      have hholds := hs.instances.holds i
      rw [hy, h] at hholds
      cases hholds
    obtain ⟨p, hp⟩ := Option.isSome_iff_exists.1 (hs.instances.program_isSome hstate)
    have hlen : y.lines.length = p.lines.length := by simpa using congrArg List.length (hs.lengths i p y hp hy)
    exact ⟨p, hp, hlen, fun t ht => hlen ▸ ((hs.programs.instances i p hp).taps t ht).line⟩
  head i y hy l hl := ((hr.running i y hy).lines l hl).2 (Nat.mul_pos (List.length_pos_iff.2 (hs.pages_ne_nil hy hl)) (by decide))
  apart i i' y y' j j' l l' k k' hy hl hk hy' hl' hk' heq := by
    have hpool : l.pool = l'.pool := congrArg Prod.fst heq
    have haddr : translate l.pages k = translate l'.pages k' := congrArg Prod.snd heq
    have h := hs.owner_of_word hrun hy hl hk
    rw [hpool, haddr, hs.owner_of_word hrun hy' hl' hk'] at h
    cases h
    exact ⟨rfl, rfl⟩

theorem Apart.congr {s t : State} (hs : Apart s) (h : t.instances = s.instances) : Apart t := by
  have hinst (i : InstNo) : t.inst i = s.inst i := congrArg (fun v : Vector Inst 24 => v[i.val]) h
  exact ⟨fun i => hinst i ▸ hs.holds i, fun i => hinst i ▸ hs.program i, fun i => hinst i ▸ hs.head i,
    fun i i' => hinst i ▸ hinst i' ▸ hs.apart i i'⟩

/-! ### What an instance's frame depends on -/

section
variable {rate : SampleRate} {i : InstNo} {x : Inst} {p : Program} {y : Running} {s u : State}

theorem posBack_lt {w k len : Nat} (h : 0 < len) : posBack w k len < len := by
  have h0 : (0 : Int) < len := by omega
  have hlt := Int.emod_lt_of_pos ((w : Int) - k) h0
  have hnn := Int.emod_nonneg ((w : Int) - k) (Int.ne_of_gt h0)
  unfold posBack
  omega

/-- The taps of a frame read the words of the instance's own lines. -/
theorem frameTaps_congr (htempo : u.tempo = s.tempo) (htaps : ∀ t ∈ p.taps, t.line < y.lines.length) (hhead : ∀ l ∈ y.lines, l.w < l.len)
    (hwords : ∀ l ∈ y.lines, ∀ k < l.len, u.wordAt (l.pool, translate l.pages k) = s.wordAt (l.pool, translate l.pages k)) :
    frameTaps rate i x p y u = frameTaps rate i x p y s := by
  have hctx : frameCtx rate i x p y u = frameCtx rate i x p y s := by rw [frameCtx, htempo]; rfl
  have htap (t : TapProg) (ht : t ∈ p.taps) (v : TapRun) :
      tapFrame (frameCtx rate i x p y u) t v u = tapFrame (frameCtx rate i x p y s) t v s := by
    have hline : (frameCtx rate i x p y s).lineOf t ∈ y.lines := by
      show y.lines.getD t.line _ ∈ y.lines
      rw [List.getD_eq_getElem?_getD, List.getElem?_eq_getElem (htaps t ht), Option.getD_some]
      exact List.getElem_mem _
    rw [hctx]
    refine tapFrame_congr fun k => sourceSample_congr fun _ => hwords _ hline _ (posBack_lt ?_)
    exact Nat.lt_of_le_of_lt (Nat.zero_le _) (hhead _ hline)
  refine List.ext_getElem? fun k => ?_
  rw [frameTaps, frameTaps, List.getElem?_zipWith, List.getElem?_zipWith]
  obtain h | ⟨t, h⟩ := Option.eq_none_or_eq_some p.taps[k]?
  · rw [h]
  · rw [h]
    cases y.taps[k]? with
    | none => rfl
    | some v => exact congrArg some (htap t (List.mem_of_getElem? h) v)

/-- With the same taps and inputs an instance comes to the same. -/
theorem instFrame_congr (htaps : frameTaps rate i x p y u = frameTaps rate i x p y s) (hports : u.ports = s.ports) :
    frameAccs rate i x p y u = frameAccs rate i x p y s ∧
    (instFrame rate i x p y u).inst = (instFrame rate i x p y s).inst ∧ (instFrame rate i x p y u).outA = (instFrame rate i x p y s).outA ∧
      (instFrame rate i x p y u).outB = (instFrame rate i x p y s).outB := by
  have haccs : frameAccs rate i x p y u = frameAccs rate i x p y s := by rw [frameAccs, frameAccs, htaps, hports]
  have hout (d : Dest) : frameOutput rate i x p y u d = frameOutput rate i x p y s d := by rw [frameOutput, frameOutput, htaps]
  have hclips : frameClips rate i x p y u = frameClips rate i x p y s := by rw [frameClips, frameClips, htaps, haccs]
  have hrunning : frameRunning rate i x p y u = frameRunning rate i x p y s := by
    rw [frameRunning, frameRunning, htaps, hout, hout]
  have hinst : frameInst rate i x p y u = frameInst rate i x p y s := by rw [frameInst, frameInst, hrunning, hclips]
  rw [instFrame_eq, instFrame_eq]
  exact ⟨haccs, congrArg Inst.closeWindow hinst, hout .outA, hout .outB⟩

end

/-! ### What each instance comes to -/

section
variable (rate : SampleRate) (s : State)

/-- The outputs of an instance in a frame that begins in a state. -/
def outputsOf (i : InstNo) : Int × Int :=
  match (s.inst i).program, (s.inst i).running with
  | some p, some y => ((instFrame rate i (s.inst i) p y s).outA, (instFrame rate i (s.inst i) p y s).outB)
  | _, _ => (0, 0)

/-- The instance after that frame. -/
def instAfter (i : InstNo) : Inst :=
  match (s.inst i).program, (s.inst i).running with
  | some p, some y => (instFrame rate i (s.inst i) p y s).inst
  | _, _ => s.inst i

/-- Its line writes in that frame. -/
def writesOf (i : InstNo) : List ((Pool × Nat) × Int) :=
  match (s.inst i).program, (s.inst i).running with
  | some p, some y => lineWrites y.lines (frameAccs rate i (s.inst i) p y s)
  | _, _ => []

/-- What it adds to an output slot (R26). -/
def addedTo (k : PortNo) (i : InstNo) : Int :=
  (if (s.inst i).routing.outA = some k then (outputsOf rate s i).1 else 0) +
    if (s.inst i).routing.outB = some k then (outputsOf rate s i).2 else 0

variable {rate s} {i : InstNo} {p : Program} {y : Running}

theorem outputsOf_some (hp : (s.inst i).program = some p) (hy : (s.inst i).running = some y) :
    outputsOf rate s i = ((instFrame rate i (s.inst i) p y s).outA, (instFrame rate i (s.inst i) p y s).outB) := by
  simp only [outputsOf, hp, hy]

theorem instAfter_some (hp : (s.inst i).program = some p) (hy : (s.inst i).running = some y) :
    instAfter rate s i = (instFrame rate i (s.inst i) p y s).inst := by
  simp only [instAfter, hp, hy]

theorem writesOf_some (hp : (s.inst i).program = some p) (hy : (s.inst i).running = some y) :
    writesOf rate s i = lineWrites y.lines (frameAccs rate i (s.inst i) p y s) := by
  simp only [writesOf, hp, hy]

theorem outputsOf_none (hy : (s.inst i).running = none) : outputsOf rate s i = (0, 0) := by
  unfold outputsOf
  rw [hy]
  split <;> simp_all

theorem instAfter_none (hy : (s.inst i).running = none) : instAfter rate s i = s.inst i := by
  unfold instAfter
  rw [hy]
  split <;> simp_all

theorem writesOf_none (hy : (s.inst i).running = none) : writesOf rate s i = [] := by
  unfold writesOf
  rw [hy]
  split <;> simp_all

/-- The places that an instance writes are the heads of its lines. -/
theorem Apart.writesOf_fst (hs : Apart s) (i : InstNo) :
    (writesOf rate s i).map Prod.fst = match (s.inst i).running with
      | some y => y.lines.map LineRun.head
      | none => [] := by
  obtain h | ⟨y, hy⟩ := Option.eq_none_or_eq_some (s.inst i).running
  · rw [writesOf_none h, h]
    rfl
  · obtain ⟨p, hp, hlen, -⟩ := hs.program i y hy
    rw [writesOf_some hp hy, lineWrites_frame_fst hlen, hy]

theorem Apart.mem_writesOf_fst (hs : Apart s) {z : Pool × Nat} (h : z ∈ (writesOf rate s i).map Prod.fst) :
    ∃ (y : Running) (j : Nat) (l : LineRun), (s.inst i).running = some y ∧ y.lines[j]? = some l ∧ l.w < l.len ∧ z = l.head := by
  rw [hs.writesOf_fst] at h
  obtain hy | ⟨y, hy⟩ := Option.eq_none_or_eq_some (s.inst i).running
  · rw [hy] at h
    cases h
  · rw [hy] at h
    obtain ⟨l, hl, rfl⟩ := List.mem_map.1 h
    obtain ⟨j, hj⟩ := List.mem_iff_getElem?.1 hl
    exact ⟨y, j, l, hy, hj, hs.head i y hy l hl, rfl⟩

/-- No two writes of a frame fall on one place. -/
theorem Apart.nodup_writes (hs : Apart s) {l : List InstNo} (hl : l.Nodup) : ((l.flatMap (writesOf rate s)).map Prod.fst).Nodup := by
  rw [List.map_flatMap, List.nodup_flatMap]
  refine ⟨fun i _ => ?_, hl.imp fun hne z hz hz' => ?_⟩
  · rw [hs.writesOf_fst]
    obtain hy | ⟨y, hy⟩ := Option.eq_none_or_eq_some (s.inst i).running
    · rw [hy]
      exact List.nodup_nil
    · rw [hy]
      refine List.nodup_iff_getElem?_ne_getElem?.2 fun a b hab hb heq => ?_
      rw [List.length_map] at hb
      have hla := List.getElem?_eq_getElem (l := y.lines) (hab.trans hb)
      have hlb := List.getElem?_eq_getElem (l := y.lines) hb
      rw [List.getElem?_map, List.getElem?_map, hla, hlb] at heq
      have := (hs.apart i i y y a b _ _ _ _ hy hla (hs.head i y hy _ (List.mem_of_getElem? hla)) hy hlb
        (hs.head i y hy _ (List.mem_of_getElem? hlb)) (Option.some.inj heq)).2
      omega
  · obtain ⟨y, j, l, hy, hl, hw, rfl⟩ := hs.mem_writesOf_fst hz
    obtain ⟨y', j', l', hy', hl', hw', heq⟩ := hs.mem_writesOf_fst hz'
    exact hne (hs.apart _ _ y y' j j' l l' _ _ hy hl hw hy' hl' hw' heq).1

/-! ### A frame half done -/

variable (rate s) in
/-- The state after the processing of some instances of a frame: these have come to what they come to alone, the others stand, and the
memories hold the writes made. -/
structure Processed (done : List InstNo) (u : State) : Prop where
  beside : s.SameBeside u
  insts  : ∀ i, u.inst i = if i ∈ done then instAfter rate s i else s.inst i
  words  : u.wordAt = written (done.flatMap (writesOf rate s)) s.wordAt

variable {u : State} {done l : List InstNo} {sums : Vector Int 32}

theorem Processed.start : Processed rate s [] s := ⟨State.SameBeside.refl s, fun _ => rfl, rfl⟩

/-- The words that an instance's taps read are not written by others. -/
theorem Processed.words_own (hu : Processed rate s done u) (hs : Apart s) (hi : i ∉ done) (hy : (s.inst i).running = some y) :
    ∀ l ∈ y.lines, ∀ k < l.len, u.wordAt (l.pool, translate l.pages k) = s.wordAt (l.pool, translate l.pages k) := by
  intro l hl k hk
  obtain ⟨j, hj⟩ := List.mem_iff_getElem?.1 hl
  rw [hu.words]
  refine written_of_notMem fun hmem => ?_
  rw [List.map_flatMap, List.mem_flatMap] at hmem
  obtain ⟨i', hi', hz⟩ := hmem
  obtain ⟨y', j', l', hy', hl', hw', heq⟩ := hs.mem_writesOf_fst hz
  exact hi ((hs.apart i i' y y' j j' l l' k l'.w hy hj hk hy' hl' hw' heq).1 ▸ hi')

/-- An instance processed after others has the taps it has alone. -/
theorem Processed.frameTaps_eq (hu : Processed rate s done u) (hs : Apart s) (hi : i ∉ done) (hp : (s.inst i).program = some p)
    (hy : (s.inst i).running = some y) : frameTaps rate i (s.inst i) p y u = frameTaps rate i (s.inst i) p y s := by
  obtain ⟨p', hp', -, htaps⟩ := hs.program i y hy
  obtain rfl : p = p' := Option.some.inj (hp.symm.trans hp')
  exact frameTaps_congr hu.beside.tempo htaps (hs.head i y hy) (hu.words_own hs hi hy)

theorem processInst_of_none (hy : (u.inst i).running = none) : processInst rate i (sums, u) = (sums, u) := by
  unfold processInst
  dsimp only
  rw [hy]
  split
  · next h => cases h
  · rfl

theorem processInst_of_some (hp : (u.inst i).program = some p) (hy : (u.inst i).running = some y) (hh : (u.inst i).state.holdsPages = true) :
    processInst rate i (sums, u) =
      (addOutput (u.inst i).routing.outB (instFrame rate i (u.inst i) p y u).outB
        (addOutput (u.inst i).routing.outA (instFrame rate i (u.inst i) p y u).outA sums),
      (instFrame rate i (u.inst i) p y u).state.setInst i (instFrame rate i (u.inst i) p y u).inst) := by
  simp only [processInst, hp, hy, hh, if_true]

theorem addOutput_getElem (route : Option PortNo) (v : Int) (sums : Vector Int 32) (k : PortNo) :
    (addOutput route v sums)[k.val] = sums[k.val] + if route = some k then v else 0 := by
  obtain rfl | ⟨q, rfl⟩ := Option.eq_none_or_eq_some route
  · simp [addOutput]
  · by_cases h : q = k
    · subst h
      simp [addOutput]
    · have hne : q.val ≠ k.val := fun hv => h (Fin.ext hv)
      simp [addOutput, Vector.getElem_set_ne _ _ hne, h]

/-- The frame of one more instance. -/
theorem Processed.processInst (hu : Processed rate s done u) (hs : Apart s) (hi : i ∉ done) :
    Processed rate s (done ++ [i]) (processInst rate i (sums, u)).2 ∧
      ∀ k : PortNo, (Machine.processInst rate i (sums, u)).1[k.val] = sums[k.val] + addedTo rate s k i := by
  have hinst : u.inst i = s.inst i := by rw [hu.insts, if_neg hi]
  have hmem (j : InstNo) : j ∈ done ++ [i] ↔ j ∈ done ∨ j = i := by simp
  have hbeside := hu.beside.trans (processInst_keeps rate i (sums, u)).1
  obtain hy | ⟨y, hy⟩ := Option.eq_none_or_eq_some (s.inst i).running
  · rw [processInst_of_none (by rw [hinst]; exact hy)]
    refine ⟨⟨hu.beside, fun j => ?_, ?_⟩, fun k => ?_⟩
    · rw [hu.insts]
      by_cases hj : j = i
      · subst hj
        rw [if_neg hi, if_pos ((hmem j).2 (.inr rfl)), instAfter_none hy]
      · simp only [hmem, hj, or_false]
    · rw [List.flatMap_append, List.flatMap_singleton, writesOf_none hy, List.append_nil]
      exact hu.words
    · simp [addedTo, outputsOf_none hy]
  · obtain ⟨p, hp, -, -⟩ := hs.program i y hy
    have hh : (s.inst i).state.holdsPages = true := by rw [← hs.holds i, hy]; rfl
    have htaps := hu.frameTaps_eq hs hi hp hy
    obtain ⟨haccs, hafter, houtA, houtB⟩ := instFrame_congr htaps hu.beside.ports
    have hproc := processInst_of_some (rate := rate) (sums := sums) (by rw [hinst]; exact hp) (by rw [hinst]; exact hy) (by rw [hinst]; exact hh)
    rw [hinst, hafter, houtA, houtB] at hproc
    rw [hproc] at hbeside ⊢
    refine ⟨⟨hbeside, fun j => ?_, ?_⟩, fun k => ?_⟩
    · rw [State.setInst_inst]
      by_cases hj : j = i
      · rw [if_pos hj, if_pos ((hmem j).2 (.inr hj)), hj, instAfter_some hp hy]
      · rw [if_neg hj]
        simp only [hmem, hj, or_false]
        exact (congrArg (fun v : Vector Inst 24 => v[j.val]) (instFrame_instances ..)).trans (hu.insts j)
    · rw [List.flatMap_append, List.flatMap_singleton, written_append, ← hu.words, writesOf_some hp hy, ← haccs,
        ← instFrame_state_wordAt]
      rfl
    · rw [addOutput_getElem, addOutput_getElem, addedTo, outputsOf_some hp hy, add_assoc]

/-- The frames of some instances, one after the other. -/
theorem Processed.foldl (hs : Apart s) (hl : (done ++ l).Nodup) (hu : Processed rate s done u) :
    Processed rate s (done ++ l) (l.foldl (fun acc i => Machine.processInst rate i acc) (sums, u)).2 ∧
      ∀ k : PortNo, (l.foldl (fun acc i => Machine.processInst rate i acc) (sums, u)).1[k.val] =
        sums[k.val] + (l.map (addedTo rate s k)).sum := by
  induction l generalizing done sums u with
  | nil =>
    rw [List.append_nil]
    exact ⟨hu, fun k => by simp⟩
  | cons i l ih =>
    have hi : i ∉ done := fun h => List.disjoint_of_nodup_append hl h List.mem_cons_self
    obtain ⟨hnext, hsums⟩ := hu.processInst (sums := sums) hs hi
    rw [← List.singleton_append, ← List.append_assoc] at hl ⊢
    obtain ⟨hlast, hrest⟩ := ih (sums := (Machine.processInst rate i (sums, u)).1) hl hnext
    refine ⟨hlast, fun k => ?_⟩
    rw [List.singleton_append, List.foldl_cons, List.map_cons, List.sum_cons, ← add_assoc, ← hsums]
    exact hrest k

/-- A whole frame: every instance processed, in the order given. -/
theorem Apart.processAll (hs : Apart s) (order : List InstNo) :
    Processed rate s (frameOrder order) (processAll rate order s).2 ∧
      ∀ k : PortNo, (Machine.processAll rate order s).1[k.val] = ((frameOrder order).map (addedTo rate s k)).sum := by
  obtain ⟨hlast, hsums⟩ := Processed.start.foldl (l := frameOrder order) (sums := Vector.replicate 32 0) (rate := rate) hs (nodup_frameOrder order)
  refine ⟨hlast, fun k => (hsums k).trans ?_⟩
  rw [Vector.getElem_replicate, zero_add]

theorem perm_frameOrder (order : List InstNo) : (frameOrder order).Perm allInsts :=
  (List.perm_ext_iff_of_nodup (nodup_frameOrder order) (List.nodup_finRange 24)).2 fun i =>
    ⟨fun _ => List.mem_finRange i, fun _ => mem_frameOrder order i⟩

theorem Processed.inst_of_mem (hu : Processed rate s done u) (h : i ∈ done) : u.inst i = instAfter rate s i := by
  rw [hu.insts, if_pos h]

/-- The word at every place after a whole frame does not depend on the order. -/
theorem Apart.wordAt_processAll (hs : Apart s) (order order' : List InstNo) :
    (Machine.processAll rate order' s).2.wordAt = (Machine.processAll rate order s).2.wordAt := by
  funext z
  rw [(hs.processAll order').1.words, (hs.processAll order).1.words]
  have hperm : ((frameOrder order').flatMap (writesOf rate s)).Perm ((frameOrder order).flatMap (writesOf rate s)) :=
    ((perm_frameOrder order').trans (perm_frameOrder order).symm).flatMap_right _
  by_cases hz : z ∈ ((frameOrder order).flatMap (writesOf rate s)).map Prod.fst
  · obtain ⟨⟨z, v⟩, hmem, rfl⟩ := List.mem_map.1 hz
    rw [written_of_mem (hs.nodup_writes (nodup_frameOrder order)) hmem,
      written_of_mem (hs.nodup_writes (nodup_frameOrder order')) (hperm.mem_iff.2 hmem)]
  · rw [written_of_notMem hz, written_of_notMem (mt (hperm.map Prod.fst).mem_iff.1 hz)]

/-! ### A frame cut off (R48) -/

theorem lineWrites_take (n : Nat) (ls : List LineRun) (accs : List Int) : lineWrites (ls.take n) accs = (lineWrites ls accs).take n := by
  induction n generalizing ls accs with
  | zero => rfl
  | succ n ih =>
    cases ls with
    | nil => rfl
    | cons l ls =>
      cases accs with
      | nil => rfl
      | cons acc accs => exact congrArg (_ :: ·) (ih ls accs)

theorem Processed.writeCount_eq (hu : Processed rate s done u) (hs : Apart s) (hi : i ∉ done) :
    (u.inst i).writeCount = (writesOf rate s i).length := by
  have hinst : u.inst i = s.inst i := by rw [hu.insts, if_neg hi]
  have hlen := congrArg List.length (hs.writesOf_fst (rate := rate) i)
  rw [List.length_map] at hlen
  rw [hinst, hlen]
  obtain hy | ⟨y, hy⟩ := Option.eq_none_or_eq_some (s.inst i).running
  · rw [Inst.writeCount, hy]
    split
    · next h => cases h
    · rfl
  · obtain ⟨p, hp, -, -⟩ := hs.program i y hy
    have hh : (s.inst i).state.holdsPages = true := by rw [← hs.holds i, hy]; rfl
    simp only [Inst.writeCount, hp, hy, hh, if_true, List.length_map]

/-- An instance whose processing is cut off has made its first writes. -/
theorem Processed.cutInst_wordAt (hu : Processed rate s done u) (hs : Apart s) (hi : i ∉ done) (n : Nat) :
    (cutInst rate n i u).wordAt = written ((writesOf rate s i).take n) u.wordAt := by
  have hinst : u.inst i = s.inst i := by rw [hu.insts, if_neg hi]
  obtain hy | ⟨y, hy⟩ := Option.eq_none_or_eq_some (s.inst i).running
  · rw [writesOf_none hy, cutInst, hinst, hy]
    dsimp only
    split
    · next h => cases h
    · rw [List.take_nil]
      rfl
  · obtain ⟨p, hp, -, -⟩ := hs.program i y hy
    have hh : (s.inst i).state.holdsPages = true := by rw [← hs.holds i, hy]; rfl
    have haccs := (instFrame_congr (hu.frameTaps_eq hs hi hp hy) hu.beside.ports).1
    have hcut : cutInst rate n i u = writeLines (y.lines.take n) (frameAccs rate i (s.inst i) p y u) u := by
      simp only [cutInst, hinst, hp, hy, hh, if_true, tapsFrame_frame]
      rfl
    rw [hcut, writeLines_wordAt, lineWrites_take, haccs, writesOf_some hp hy]

/-- The words after a frame that is cut off: its first writes, in the order of instances (log 23). -/
theorem Processed.cutFrame_wordAt (hs : Apart s) (hl : (done ++ l).Nodup) (hu : Processed rate s done u) (n : Nat) :
    (cutFrame rate n l u).wordAt = written ((l.flatMap (writesOf rate s)).take n) u.wordAt := by
  induction l generalizing done u n with
  | nil => simp [cutFrame, written]
  | cons i l ih =>
    have hi : i ∉ done := fun h => List.disjoint_of_nodup_append hl h List.mem_cons_self
    have hcount := hu.writeCount_eq hs hi
    rw [cutFrame, hcount, List.flatMap_cons, List.take_append]
    split
    · next hle =>
      obtain ⟨hnext, -⟩ := hu.processInst (sums := Vector.replicate 32 0) hs hi
      rw [← List.singleton_append, ← List.append_assoc] at hl
      rw [ih hl hnext, List.take_of_length_le hle, written_append, hnext.words, hu.words, List.flatMap_append, written_append,
        List.flatMap_singleton]
    · next hgt =>
      have hzero : n - (writesOf rate s i).length = 0 := by omega
      rw [hu.cutInst_wordAt hs hi, hzero, List.take_zero, List.append_nil]

end

/-- Settles O53: every instance comes to what it comes to alone, and the writes of any two orders are the same. -/
theorem eachInstanceIsProcessedOnItsOwn : Obligations.EachInstanceIsProcessedOnItsOwn := by
  intro s r order hpool hrunning hrun t outputs
  have hs : Apart s := hpool.apart hrunning hrun
  obtain ⟨hall, hsums⟩ := hs.processAll (rate := r.rate) order
  have houtputs (i : InstNo) : outputsOf r.rate s i = outputs i := rfl
  refine ⟨fun i p y hp hy => ?_, fun i hy => ?_, fun k => ?_, fun order' a => ⟨?_, ?_⟩⟩
  · exact (hall.inst_of_mem (mem_frameOrder order i)).trans (instAfter_some hp hy)
  · exact (hall.inst_of_mem (mem_frameOrder order i)).trans (instAfter_none hy)
  · rw [hsums, ((perm_frameOrder order).map _).sum_eq]
    rfl
  · exact State.wordAt_near_inj.1 (congrFun (hs.wordAt_processAll order order') (.near, a))
  · exact congrFun (hs.wordAt_processAll order order') (.far, a)

end Sys2Proof.Machine
end

section
/-! The frame start, whole and cut off (R24, R48, R53, R124, R159, R163, R170 to R172): obligation O45. -/

namespace Sys2Proof.Machine

section
variable {s : State} {inputs : Vector Int 32} {env : FrameEnv}

/-! ### Up to the tap engine's work -/

theorem State.upset_eq (u : Upset) (s : State) : s.upset u = { s with dram := (s.upset u).dram } := by
  unfold State.upset
  split <;> rfl

theorem State.upsets_eq (us : List Upset) (s : State) : s.upsets us = { s with dram := (s.upsets us).dram } := by
  unfold State.upsets
  induction us generalizing s with
  | nil => rfl
  | cons u us ih =>
    rw [List.foldl_cons, ih, State.upset_eq u s]

theorem State.overdueDecision_of_none {i : InstNo} (h : (s.inst i).decision = none) : s.overdueDecision i = s := by
  have htail : s.tailDecision i = s := by rw [State.tailDecision, h]
  unfold State.overdueDecision
  rw [htail]
  split
  · split <;> rfl
  · rfl

/-- With no event of the frame before outstanding none is taken (log 8). -/
theorem State.finishFrame_of_none (hdue : s.serviceDue = none) (hcue : s.cue.due = false) (hdecision : ∀ i, (s.inst i).decision = none)
    (order : List InstNo) : s.finishFrame order = s := by
  have hfold : (frameOrder order).foldl State.overdueDecision s = s :=
    List.foldl_fixed' (fun i => State.overdueDecision_of_none (hdecision i)) _
  have hservice : s.service [] = s := by rw [State.service, hdue]
  rw [State.finishFrame, hfold, hservice, State.applyCue, hcue]
  rfl

/-- The notices after the pending set has been handed over (R172). -/
def State.sentNotices (s : State) : Notices :=
  if s.monitor.lock = .locked ∧ s.ports.pendingClip ≠ 0 then s.notices.raise (.outClip s.ports.pendingClip) else s.notices

theorem State.transmit_eq (s : State) :
    s.transmit =
      { s with
        ports := { s.ports with transmit := if s.monitor.lock = .locked then s.ports.pending else silence },
        notices := s.sentNotices } := by
  unfold State.transmit State.sentNotices
  cases hlock : s.monitor.lock with
  | free => rfl
  | locked =>
    by_cases hclip : s.ports.pendingClip = 0
    · simp only [hclip, if_true, ne_eq, not_true, and_false, if_false]
    · simp only [hclip, if_true, ne_eq, not_false_eq_true, and_self, if_false]
      rfl

/-- The state that a frame start hands to the blocks: the words the DRAM has inverted, the pending set sent, the inputs taken. -/
def State.sent (inputs : Vector Int 32) (us : List Upset) (s : State) : State :=
  { s with
    dram := (s.upsets us).dram,
    ports := { s.ports with inputs := inputs, transmit := if s.monitor.lock = .locked then s.ports.pending else silence },
    notices := s.sentNotices }

/-- That state with the events marked that follow the frame. -/
def State.marked (inputs : Vector Int 32) (us : List Upset) (r : Run) (s : State) : State :=
  State.markFrame r { s.sent inputs us with tempo := s.tempo.tick r.rate }

theorem State.openFrame_eq (hfinish : s.finishFrame env.order = s) :
    s.openFrame inputs env = match s.run with
      | none => s.sent inputs env.upsets
      | some r => s.marked inputs env.upsets r := by
  have hsent : (let s0 := (s.upsets env.upsets).transmit
      ({ s0 with ports := { s0.ports with inputs := inputs } } : State)) = s.sent inputs env.upsets := by
    rw [State.transmit_eq, State.upsets_eq]
    rfl
  have hopen : s.openFrame inputs env = match (s.sent inputs env.upsets).run with
      | none => s.sent inputs env.upsets
      | some r => State.markFrame r { s.sent inputs env.upsets with tempo := (s.sent inputs env.upsets).tempo.tick r.rate } := by
    rw [State.openFrame, hfinish, ← hsent] <;> rfl
  have hrun : (s.sent inputs env.upsets).run = s.run := rfl
  rw [hopen, hrun] <;> rfl

theorem State.sentNotices_outClip (s : State) :
    s.sentNotices.outClip = if s.monitor.lock = .locked ∧ s.notices.portCfg.enabled = true then
      s.notices.outClip ||| s.ports.pendingClip else s.notices.outClip := by
  have hraise (m : BitVec 32) :
      (s.notices.raise (.outClip m)).outClip = if s.notices.portCfg.enabled = true then s.notices.outClip ||| m else s.notices.outClip := by
    unfold Notices.raise
    show (if s.notices.portCfg.enabled = true then _ else _ : Notices).outClip = _
    split <;> rfl
  unfold State.sentNotices
  by_cases hlock : s.monitor.lock = .locked
  · by_cases hclip : s.ports.pendingClip = 0
    · rw [hclip]
      simp
    · rw [if_pos ⟨hlock, hclip⟩, hraise]
      simp only [hlock, true_and]
  · simp only [hlock, false_and, if_false]

/-! ### The tap engine's part -/

theorem processInst_outClip (rate : SampleRate) (i : InstNo) (acc : Vector Int 32 × State) :
    (processInst rate i acc).2.notices.outClip = acc.2.notices.outClip := by
  unfold processInst
  dsimp only
  split
  · next p y _ _ =>
    split
    · have h := congrArg Notices.outClip (instFrame_state_notices rate i (acc.2.inst i) p y acc.2)
      refine h.trans ?_
      split
      · unfold Notices.raise
        split <;> rfl
      · rfl
    · rfl
  · rfl

theorem processAll_outClip (rate : SampleRate) (order : List InstNo) (s : State) :
    (processAll rate order s).2.notices.outClip = s.notices.outClip := by
  suffices h : ∀ (l : List InstNo) (acc : Vector Int 32 × State),
      (l.foldl (fun acc i => processInst rate i acc) acc).2.notices.outClip = acc.2.notices.outClip from h _ _
  intro l
  induction l with
  | nil => exact fun _ => rfl
  | cons i l ih => exact fun acc => (ih _).trans (processInst_outClip rate i acc)

theorem pendingOf_getElem (sums : Vector Int 32) (k : PortNo) : (pendingOf sums)[k.val] = sat24 sums[k.val] := by
  simp [pendingOf]

theorem getLsbD_two_pow (j k : Fin 32) : (BitVec.ofNat 32 (2 ^ k.val)).getLsbD j.val = decide (k = j) := by
  rw [BitVec.getLsbD_ofNat, Nat.testBit_two_pow]
  simp [Fin.ext_iff]

/-- Bit k of the clamp mask stands for slot k (R172). -/
theorem clampMask_getLsbD (sums : Vector Int 32) (k : PortNo) : (clampMask sums).getLsbD k.val = sat24Clamps sums[k.val] := by
  have hfold (l : List PortNo) (m : BitVec 32) :
      (l.foldl (fun m k => if sat24Clamps sums[k.val] then m ||| BitVec.ofNat 32 (2 ^ k.val) else m) m).getLsbD k.val =
        (m.getLsbD k.val || decide (k ∈ l) && sat24Clamps sums[k.val]) := by
    induction l generalizing m with
    | nil => simp
    | cons j l ih =>
      rw [List.foldl_cons, ih]
      by_cases hc : sat24Clamps sums[j.val] = true
      · rw [if_pos hc, BitVec.getLsbD_or, getLsbD_two_pow]
        by_cases hj : j = k
        · subst hj
          simp [hc]
        · simp [hj, Ne.symm hj]
      · rw [if_neg hc]
        by_cases hj : j = k
        · subst hj
          simp [hc]
        · simp [Ne.symm hj]
  rw [clampMask, hfold]
  simp

/-! ### A frame start cut off -/

/-- The places that a frame writes, in the frame's order of instances. -/
def framePlaces (order : List InstNo) (s : State) : List (Pool × Nat) :=
  (frameOrder order).flatMap fun i =>
    match (s.inst i).running with
    | some y => y.lines.map fun l => (l.pool, translate l.pages l.w)
    | none => []

theorem Apart.writes_fst (hs : Apart s) (rate : SampleRate) (order : List InstNo) :
    ((frameOrder order).flatMap (writesOf rate s)).map Prod.fst = framePlaces order s := by
  rw [List.map_flatMap, framePlaces]
  refine congrArg (fun f => (frameOrder order).flatMap f) (funext fun i => ?_)
  exact hs.writesOf_fst i

/-- The words after a cut frame: those of the whole frame at its first places, the words before it at every other. -/
theorem Apart.cutFrame_wordAt (hs : Apart s) (rate : SampleRate) (order : List InstNo) (n : Nat) (z : Pool × Nat) :
    (Machine.cutFrame rate n (frameOrder order) s).wordAt z =
      if z ∈ (framePlaces order s).take n then (Machine.processAll rate order s).2.wordAt z else s.wordAt z := by
  have hnodup := hs.nodup_writes (rate := rate) (nodup_frameOrder order)
  rw [Processed.start.cutFrame_wordAt (l := frameOrder order) (rate := rate) hs (nodup_frameOrder order), (hs.processAll order).1.words,
    ← hs.writes_fst rate, ← List.map_take]
  by_cases hz : z ∈ (((frameOrder order).flatMap (writesOf rate s)).take n).map Prod.fst
  · rw [if_pos hz]
    obtain ⟨⟨z, v⟩, hmem, rfl⟩ := List.mem_map.1 hz
    rw [written_of_mem (List.map_take ▸ hnodup.sublist (List.take_sublist ..)) hmem,
      written_of_mem hnodup (List.mem_of_mem_take hmem)]
  · rw [if_neg hz, written_of_notMem hz]

theorem InstancesInv.running_none (hs : InstancesInv s) (hrun : s.run = none) (i : InstNo) : (s.inst i).running = none := by
  have h := hs.holds i
  rw [hs.setup hrun i] at h
  exact Option.isSome_eq_false_iff.1 h |> Option.isNone_iff_eq_none.1

theorem framePlaces_setup (hs : InstancesInv s) (hrun : s.run = none) (order : List InstNo) : framePlaces order s = [] := by
  rw [framePlaces, List.flatMap_eq_nil_iff]
  intro i _
  rw [hs.running_none hrun i]

/-- A frame start cut off in RUN: the state of the asserted RESET pin, with the words of the frame's first writes. -/
theorem Apart.cutFrameStart_wordAt (hs : Apart s) (hfinish : s.finishFrame env.order = s) {r : Run} (hrun : s.run = some r) (n : Nat)
    (z : Pool × Nat) :
    (s.cutFrameStart inputs n env).wordAt z =
      if z ∈ (framePlaces env.order s).take n then (s.wholeFrame inputs env).wordAt z else (s.upsets env.upsets).wordAt z := by
  have hopen : s.openFrame inputs env = s.marked inputs env.upsets r := by
    rw [State.openFrame_eq hfinish, hrun]
  have hmarked : Apart (s.marked inputs env.upsets r) := hs.congr rfl
  have hplaces : framePlaces env.order (s.marked inputs env.upsets r) = framePlaces env.order s := rfl
  have hrun' : (s.marked inputs env.upsets r).run = some r := hrun
  have hkeep := (cutFrame_keeps r.rate (frameOrder env.order) n (s.marked inputs env.upsets r)).1
  have hcut : (s.cutFrameStart inputs n env).wordAt = (Machine.cutFrame r.rate n (frameOrder env.order) (s.marked inputs env.upsets r)).wordAt := by
    rw [State.cutFrameStart, hopen, hrun']
    exact State.wordAt_congr rfl rfl rfl
  have hwhole : (s.wholeFrame inputs env).wordAt = (Machine.processAll r.rate env.order (s.marked inputs env.upsets r)).2.wordAt := by
    rw [State.wholeFrame, hopen, hrun']
    rfl
  have hbefore : (s.marked inputs env.upsets r).wordAt = (s.upsets env.upsets).wordAt := by
    rw [State.upsets_eq]
    exact State.wordAt_congr rfl rfl rfl
  rw [hcut, hwhole, hmarked.cutFrame_wordAt, hplaces, hbefore]

/-- A frame start cut off in SETUP has written nothing. -/
theorem cutFrameStart_wordAt_setup (hfinish : s.finishFrame env.order = s) (hrun : s.run = none) (n : Nat) :
    (s.cutFrameStart inputs n env).wordAt = (s.upsets env.upsets).wordAt := by
  have hopen : s.openFrame inputs env = s.sent inputs env.upsets := by rw [State.openFrame_eq hfinish, hrun]
  have hrun' : (s.sent inputs env.upsets).run = none := hrun
  rw [State.cutFrameStart, hopen, hrun', State.upsets_eq]
  exact State.wordAt_congr rfl rfl rfl

theorem cutFrameStart_eq (hfinish : s.finishFrame env.order = s) (n : Nat) :
    s.cutFrameStart inputs n env =
      { State.reset with
        pending := s.pending, powerUps := s.powerUps, library := s.library, near := (s.cutFrameStart inputs n env).near,
        dram := (s.cutFrameStart inputs n env).dram, resetPin := true } := by
  obtain ⟨-, h⟩ | ⟨r, -, h⟩ := State.cutFrameStart_cases inputs n env s
  · rw [h, State.openFrame_eq hfinish]
    split <;> rfl
  · rw [h, State.openFrame_eq hfinish]
    split <;> rfl

/-! ### A whole frame start -/

theorem State.frame_whole (hwords : s.wordsExist = true) (hcut : env.cut = none) :
    s.frame inputs env = .next (s.wholeFrame inputs env) :=
  (if_pos hwords).trans (congrArg Host.Outcome.next (State.frameStart_whole hcut inputs s))

theorem State.frame_cut (hwords : s.wordsExist = true) {n : Nat} (hcut : env.cut = some n) :
    s.frame inputs env = .next (s.cutFrameStart inputs n env) :=
  (if_pos hwords).trans (congrArg Host.Outcome.next (State.frameStart_cut hcut inputs s))

theorem State.wholeFrame_of_setup (hfinish : s.finishFrame env.order = s) (hrun : s.run = none) :
    s.wholeFrame inputs env =
      { s.sent inputs env.upsets with ports := { (s.sent inputs env.upsets).ports with pending := silence, pendingClip := 0 } } := by
  have hopen : s.openFrame inputs env = s.sent inputs env.upsets := by rw [State.openFrame_eq hfinish, hrun]
  have hrun' : (s.sent inputs env.upsets).run = none := hrun
  rw [State.wholeFrame, hopen]
  dsimp only
  split
  · rfl
  · next r h =>
    rw [hrun'] at h
    cases h

theorem State.wholeFrame_of_run (hfinish : s.finishFrame env.order = s) {r : Run} (hrun : s.run = some r) :
    s.wholeFrame inputs env = (s.marked inputs env.upsets r).runFrame r.rate env.order := by
  have hopen : s.openFrame inputs env = s.marked inputs env.upsets r := by rw [State.openFrame_eq hfinish, hrun]
  have hrun' : (s.marked inputs env.upsets r).run = some r := hrun
  rw [State.wholeFrame, hopen, hrun']

end

/-- Settles O45: a cut frame start by the writes made, a whole one in SETUP and in RUN by what it hands to the blocks. -/
theorem frameStartHandsOver : Obligations.FrameStartHandsOver := by
  refine ⟨fun s inputs env n hpool hrunning hdue hcue hdecision hcut => ?_, fun s inputs env hwords hdue hcue hdecision hcut => ?_⟩
  · intro places
    have hplaces : places = framePlaces env.order s := rfl
    have hfinish := State.finishFrame_of_none hdue hcue hdecision env.order
    have hword (z : Pool × Nat) : (s.cutFrameStart inputs n env).wordAt z =
        if z ∈ places.take n then (s.wholeFrame inputs env).wordAt z else (s.upsets env.upsets).wordAt z := by
      obtain hrun | ⟨r, hrun⟩ := Option.eq_none_or_eq_some s.run
      · rw [cutFrameStart_wordAt_setup hfinish hrun, hplaces, framePlaces_setup hpool.instances hrun, List.take_nil,
          if_neg List.not_mem_nil]
      · exact (hpool.apart hrunning hrun).cutFrameStart_wordAt hfinish hrun n z
    have hnear (a : Nat) : (s.upsets env.upsets).nearWord a = s.nearWord a := by rw [State.upsets_eq]; rfl
    refine ⟨s.wholeFrame inputs env, s.cutFrameStart inputs n env,
      State.frame_whole (env := { env with cut := none }) hpool.wordsExist rfl, State.frame_cut hpool.wordsExist hcut,
      cutFrameStart_eq hfinish n, fun a => ?_, fun a => hword (.far, a)⟩
    have h := congrArg DramWord.sample (hword (.near, a))
    rw [apply_ite DramWord.sample, State.wordAt_near, State.wordAt_near, State.wordAt_near, hnear] at h
    exact h
  · have hfinish := State.finishFrame_of_none hdue hcue hdecision env.order
    refine ⟨s.wholeFrame inputs env, State.frame_whole hwords hcut, ?_⟩
    obtain hrun | ⟨r, hrun⟩ := Option.eq_none_or_eq_some s.run
    · rw [State.wholeFrame_of_setup hfinish hrun]
      refine ⟨rfl, rfl, rfl, rfl, rfl, rfl, rfl, rfl, s.sentNotices_outClip,
        fun _ => ⟨rfl, rfl, rfl, rfl, rfl, rfl, rfl, hdue⟩, fun r h => ?_⟩
      rw [hrun] at h
      cases h
    · rw [State.wholeFrame_of_run hfinish hrun]
      obtain ⟨hkeep, -⟩ := processAll_keeps r.rate env.order (s.marked inputs env.upsets r)
      have hclip := processAll_outClip r.rate env.order (s.marked inputs env.upsets r)
      refine ⟨hkeep.monitor, hkeep.link, hkeep.library, hkeep.queue, hkeep.spill, hkeep.run, congrArg Ports.inputs hkeep.ports,
        congrArg Ports.transmit hkeep.ports, hclip.trans s.sentNotices_outClip, fun h => ?_, fun r' h => ?_⟩
      · rw [hrun] at h
        cases h
      · obtain rfl : r = r' := Option.some.inj (hrun.symm.trans h)
        refine ⟨hkeep.tempo, hkeep.serviceDue, hkeep.cue, hkeep.access, s.marked inputs env.upsets r, rfl, rfl, rfl, rfl, rfl, rfl,
          rfl, rfl, rfl, rfl, fun k => ⟨pendingOf_getElem _ k, ?_⟩⟩
        show (clampMask _).getLsbD k.val = true ↔ _
        rw [clampMask_getLsbD, sat24Clamps_iff]

end Sys2Proof.Machine
end
